-- ==== Sys2Proof/Word.lean ====
section
/-! DEFINITION. The widths of FX16U (R6, R8, R41, R60, R64): a Fix16 raw value or an INT32 is a `Word`, a binary64 or a
data port is a `Dword`. Bit 0 is the least significant bit of every vector (R8). The readings of R9 are those of `BitVec`:
`uint` is `toNat`, `sint` is `toInt`, `bits_N` of an integer is `BitVec.ofInt N`, `sext` is `signExtend`, `zext` is
`setWidth`, and `{a, b}` is `a ++ b`. -/

namespace Sys2Proof

/-- A Fix16 raw value (R68) or an INT32 (R69). -/
abbrev Word := BitVec 32

/-- A binary64 (R70), the operand port `req_a`, or the data port `rsp_data` (R41). -/
abbrev Dword := BitVec 64

/-- An operation code, the port `req_op` (R41, R61). -/
abbrev OpCode := BitVec 3

/-- A status code, the port `rsp_status` (R41, R66). -/
abbrev StatusCode := BitVec 3

/-- A request word `REQ[98:0]` (R60). -/
abbrev ReqWord := BitVec 99

/-- A response word `RSP[66:0]` (R64). -/
abbrev RspWord := BitVec 67

/-- `FIX16_MAX`, raw 2147483647 (R6, R72). -/
def fix16Max : Word := 0x7FFFFFFF

/-- `FIX16_MIN`, raw -2147483648 (R6, R72). -/
def fix16Min : Word := 0x80000000

end Sys2Proof
end

