-- ==== Sys2Proof/Syntax.lean ====
section
/-! DEFINITION. The operations of FX16U: one constructor per row of `spec/opcode_table.json`, in the table's order (R61).
Every constructor carries the two operand fields of the request as they stand on the ports, `a` of 64 bits and `b` of
32 bits (R60): there is no other operand (no immediate, register or mode field). Which of those bits an operation reads
and which it ignores is R62, in `Machine/Operands.lean`. -/

namespace Sys2Proof

/-- One request's operation with its operand fields. -/
inductive Instr where
  /-- `FROM_INT`, code 0 (R90). -/
  | fromInt (a : Dword) (b : Word)
  /-- `TO_INT`, code 1 (R91). -/
  | toInt (a : Dword) (b : Word)
  /-- `FROM_DOUBLE`, code 2 (R92). -/
  | fromDouble (a : Dword) (b : Word)
  /-- `TO_DOUBLE`, code 3 (R95). -/
  | toDouble (a : Dword) (b : Word)
  /-- `MUL`, code 4 (R100). -/
  | mul (a : Dword) (b : Word)
  /-- `DIV`, code 5 (R110): dividend in field a, divisor in field b. -/
  | div (a : Dword) (b : Word)
  /-- `.op6`, the reserved code 6 (R73). -/
  | op6 (a : Dword) (b : Word)
  /-- `.op7`, the reserved code 7 (R73). -/
  | op7 (a : Dword) (b : Word)
deriving DecidableEq, Repr

end Sys2Proof
end

