-- ==== Sys2Proof/WellFormed.lean ====
section
/-! DEFINITION. Well-formed as R75 writes a request: "An assembled request has every ignored bit (rule R62) zero". The
hardware asks for none of this (R62, R74: ignored bits may hold any value and are never checked), so no definition of the
machine and no statement about what it does takes `Instr.wf` as a condition; it says which of the many requests for one
operation the assembler notation writes. -/

namespace Sys2Proof

/-- The upper half of field a, ignored by every operation with a 32-bit operand (R62). -/
def upperHalfZero (a : Dword) : Bool := a.extractLsb' 32 32 == 0

/-- Every ignored bit of the request is zero (R75, R62). -/
def Instr.wf : Instr → Bool
  | .fromInt a b => upperHalfZero a && b == 0
  | .toInt a b => upperHalfZero a && b == 0
  | .fromDouble _ b => b == 0
  | .toDouble a b => upperHalfZero a && b == 0
  | .mul a _ => upperHalfZero a
  | .div a _ => upperHalfZero a
  | .op6 a b => a == 0 && b == 0
  | .op7 a b => a == 0 && b == 0

/-- Field a with its upper half cleared. -/
def clearUpperHalf (a : Dword) : Dword := (a.extractLsb' 0 32).setWidth 64

/-- The assembled form of a request: the same operation on the same operands, every ignored bit zero (R75). -/
def Instr.assembled : Instr → Instr
  | .fromInt a _ => .fromInt (clearUpperHalf a) 0
  | .toInt a _ => .toInt (clearUpperHalf a) 0
  | .fromDouble a _ => .fromDouble a 0
  | .toDouble a _ => .toDouble (clearUpperHalf a) 0
  | .mul a b => .mul (clearUpperHalf a) b
  | .div a b => .div (clearUpperHalf a) b
  | .op6 _ _ => .op6 0 0
  | .op7 _ _ => .op7 0 0

end Sys2Proof
end

