-- ==== Sys2Proof/Decode.lean ====
section
/-! DEFINITION. The decoder and the encoder of a request word (R60, R61, R63). The decoder reads the three bits of `op`
and nothing else to select the operation (R61, R74); all 2^99 request words decode (R63), the reserved codes 6 and 7 to
constructors of their own (R73). The only thing it rejects is a number that is no request word at all: R60 writes a word
as 100 bits "the top bit always 0". -/

namespace Sys2Proof

/-- Field `op`, bits 98:96 of the request word (R60). -/
def reqOpField (w : ReqWord) : OpCode := w.extractLsb' 96 3

/-- Field `a`, bits 95:32 of the request word (R60). -/
def reqAField (w : ReqWord) : Dword := w.extractLsb' 32 64

/-- Field `b`, bits 31:0 of the request word (R60). -/
def reqBField (w : ReqWord) : Word := w.extractLsb' 0 32

/-- The operation selected by the three port fields (R61, R63). A 3-bit code has eight values, so the last arm is the
code 7 and no other. -/
def decodeFields (op : OpCode) (a : Dword) (b : Word) : Instr :=
  match op.toNat with
  | 0 => .fromInt a b
  | 1 => .toInt a b
  | 2 => .fromDouble a b
  | 3 => .toDouble a b
  | 4 => .mul a b
  | 5 => .div a b
  | 6 => .op6 a b
  | _ => .op7 a b

/-- The operation of a request word. -/
def decodeRequest (w : ReqWord) : Instr :=
  decodeFields (reqOpField w) (reqAField w) (reqBField w)

/-- Why a number is no request. -/
inductive DecodeError where
  /-- The number needs more than the 99 bits of a request word (R60). -/
  | notARequestWord
deriving DecidableEq, Repr

/-- The decoder on any number: a request word's operation, or the rejection by name. -/
def decodeWord (w : Nat) : Except DecodeError Instr :=
  if w < 2 ^ 99 then .ok (decodeRequest (BitVec.ofNat 99 w)) else .error .notARequestWord

/-- The request word of an opcode-table row: bit `k` of `w` is bit `k` of `REQ`, every bit from `nbits` on is 0. -/
def decodeTableWord (nbits w : Nat) : Option Instr :=
  match decodeWord (w % 2 ^ nbits) with
  | .ok i => some i
  | .error _ => none

/-- The operation code of each row of the table (R61). -/
def Instr.opCode : Instr → OpCode
  | .fromInt _ _ => 0
  | .toInt _ _ => 1
  | .fromDouble _ _ => 2
  | .toDouble _ _ => 3
  | .mul _ _ => 4
  | .div _ _ => 5
  | .op6 _ _ => 6
  | .op7 _ _ => 7

/-- What stands in field `a` of the request (R60). -/
def Instr.fieldA : Instr → Dword
  | .fromInt a _ => a
  | .toInt a _ => a
  | .fromDouble a _ => a
  | .toDouble a _ => a
  | .mul a _ => a
  | .div a _ => a
  | .op6 a _ => a
  | .op7 a _ => a

/-- What stands in field `b` of the request (R60). -/
def Instr.fieldB : Instr → Word
  | .fromInt _ b => b
  | .toInt _ b => b
  | .fromDouble _ b => b
  | .toDouble _ b => b
  | .mul _ b => b
  | .div _ b => b
  | .op6 _ b => b
  | .op7 _ b => b

/-- The request word `{op, a, b}` (R60). -/
def encode (i : Instr) : ReqWord := i.opCode ++ i.fieldA ++ i.fieldB

end Sys2Proof
end

