-- ==== Sys2Proof/Config.lean ====
section
/-! DEFINITION. What an implementation of FX16U fixes and the spec leaves open (R7), and what the environment drives.
Nothing here has a body that a proof could look into, so every claim holds for every choice. -/

namespace Sys2Proof

/-- The levels of the input ports of R41 just before one rising edge of `clk`; `clk` itself is the step of the machine. -/
structure Pins where
  rst : Bool
  reqValid : Bool
  reqOp : OpCode
  reqA : Dword
  reqB : Word
  rspReady : Bool
deriving DecidableEq, Repr, Inhabited

/-- No reset, no request, no willingness to take a response. -/
def Pins.quiet : Pins := ⟨false, false, 0, 0, 0, false⟩

/-- `NAN_RESULT` (R7, D13): one fixed raw value, the same for every NaN and every occurrence, of which nothing is known. -/
opaque Config.nanResult : Word

/-- `LATENCY(op) - 1` (R7, R22, D16): how many edges an operation waits in `BUSY` before the edge that completes it. -/
opaque Config.waitEdges : OpCode → Nat

/-- `LATENCY(op)` (R7, R170): at least 1 by its form, and bounded because there are eight codes. -/
def Config.latency (op : OpCode) : Nat := Config.waitEdges op + 1

/-- What the host drives at edge number `n` when the state's script says nothing about that edge (R13, R165: the host may
drive anything): a free value. -/
opaque Config.hostPins : Nat → Pins

end Sys2Proof
end

