-- ==== Sys2Proof/Machine/State.lean ====
section
/-! DEFINITION. The state of FX16U: the seven elements of R20, which are the whole of the unit, and three fields of the
model's own for its environment (what the host will drive, how many edges have passed, and what was transferred). -/

namespace Sys2Proof.Machine

/-- The phase of the one operation slot, `ST` (R20). Its binary encoding is not observable and not specified. -/
inductive Phase where
  | idle
  | busy
  | done
deriving DecidableEq, Repr

/-- What one request transfer moves (R42, R45): the three payload ports. -/
structure Request where
  op : OpCode
  a : Dword
  b : Word
deriving DecidableEq, Repr

/-- What one response transfer moves (R42, R45): `rsp_data` and `rsp_status`. -/
structure Response where
  data : Dword
  status : StatusCode
deriving DecidableEq, Repr

/-- What can happen on the ports at one edge and is worth recording: R40 names the accepted requests and the delivered
responses; a reset stands with them because it loses the operation in the unit (R34, R161). -/
inductive Event where
  /-- A request transfer (R22). -/
  | accepted (r : Request)
  /-- A response transfer (R24). -/
  | delivered (r : Response)
  /-- An edge with `rst = 1` (R160). -/
  | resetEdge
deriving DecidableEq, Repr

/-- Why the machine stops. FX16U never does: "There is no behaviour in this spec that a model should treat as `stuck`"
(93_implementation_defined.md, end of part 1), and its two errors are responses (R140, R141), so there is no constructor.
Nothing raises a fault, which is safe: a claim that no run faults is a claim about this type. -/
inductive Fault
deriving DecidableEq, Repr

/-- Why a step has no meaning. -/
inductive Refusal where
  /-- Raised by an arm of `exec` whose instruction has no meaning yet, naming its row of the opcode table. Safe: the
  model stops where the hardware goes on. No arm of this model raises it. -/
  | notModelled (mnemonic : String)
deriving DecidableEq, Repr

/-- The machine. The first seven fields are R20's, under R20's names; the last three are the model's own. -/
structure State where
  /-- `ST`: the phase of the one operation slot. -/
  st : Phase
  /-- `OP`: the operation code of the accepted request. -/
  op : OpCode
  /-- `A`: operand field a of the accepted request. -/
  a : Dword
  /-- `B`: operand field b of the accepted request. -/
  b : Word
  /-- `CNT`: clock edges still to wait before completion. -/
  cnt : Nat
  /-- `RES`: the data of the latest completed operation. -/
  res : Dword
  /-- `STAT`: the status code of the latest completed operation. -/
  stat : StatusCode
  /-- The model's own: the input levels the host is known to drive at the coming edges, the next edge first. -/
  script : List Pins
  /-- The model's own: how many edges have passed; beyond the script the inputs are the free value at this number. -/
  edge : Nat
  /-- The model's own: the transfers and resets so far, the latest first (R40). -/
  log : List Event
deriving DecidableEq, Repr

/-- The state after the reset transition (R32). Nothing is scripted, no edge has passed and nothing was transferred. -/
def State.reset : State where
  st := .idle
  op := 0
  a := 0
  b := 0
  cnt := 0
  res := 0
  stat := 0
  script := []
  edge := 0
  log := []

end Sys2Proof.Machine
end

