-- ==== Sys2Proof/Machine/Flags.lean ====
section
/-! DEFINITION. The status codes (R66) and the two error causes (R140). FX16U has no flag or condition-code register; the
3-bit status of a response is all there is (R28). -/

namespace Sys2Proof.Machine

/-- The five statuses FX16U produces (R66); the codes 3, 6 and 7 are never produced (U5). -/
inductive Status where
  | ok
  | saturated
  | nanOperand
  | divByZero
  | illegalOp
deriving DecidableEq, Repr

/-- The code of a status on `rsp_status` (R66). -/
def Status.code : Status → StatusCode
  | .ok => 0
  | .saturated => 1
  | .nanOperand => 2
  | .divByZero => 4
  | .illegalOp => 5

/-- The status a code names, for the codes that name one (R66, U5). -/
def Status.ofCode (c : StatusCode) : Option Status :=
  match c.toNat with
  | 0 => some .ok
  | 1 => some .saturated
  | 2 => some .nanOperand
  | 4 => some .divByZero
  | 5 => some .illegalOp
  | _ => none

/-- The error bit of a status code, bit 2 (R66, R12): 1 means that the operation has no result. -/
def isErrorCode (c : StatusCode) : Bool := c.getLsbD 2

/-- The two synchronous errors (R140). -/
inductive OpError where
  | divByZero
  | illegalOp
deriving DecidableEq, Repr

/-- The status that reports an error (R140). -/
def OpError.status : OpError → Status
  | .divByZero => .divByZero
  | .illegalOp => .illegalOp

end Sys2Proof.Machine
end

