-- ==== Sys2Proof/Machine/Operands.lean ====
section
/-! DEFINITION. The operand forms of R62 and the data formats they are read in: a Fix16 or INT32 in bits 31:0 of a field
(R68, R69), a binary64 in all of field a (R70, R71), and the binary64 that TO_DOUBLE writes (R96). No operand is extended,
scaled or shifted on the way in (R62). -/

namespace Sys2Proof.Machine

/-- Field a read as a 32-bit operand: `a[31:0]`, whatever `a[63:32]` holds (R62). -/
def lowWord (a : Dword) : Word := a.extractLsb' 0 32

/-- `s = d[63]`, the sign of a binary64 (R70). -/
def dblSign (d : Dword) : Bool := d.getLsbD 63

/-- `E = uint(d[62:52])`, the biased exponent of a binary64 (R70). -/
def dblExponent (d : Dword) : Nat := (d.extractLsb' 52 11).toNat

/-- `F = uint(d[51:0])`, the fraction of a binary64 (R70). -/
def dblFraction (d : Dword) : Nat := (d.extractLsb' 0 52).toNat

/-- The five classes of a binary64 (R71). -/
inductive DblClass where
  | zero
  | subnormal
  | normal
  | infinity
  | nan
deriving DecidableEq, Repr

/-- The class of a binary64 (R71). -/
def dblClass (d : Dword) : DblClass :=
  if dblExponent d = 2047 then
    if dblFraction d = 0 then .infinity else .nan
  else if dblExponent d = 0 then
    if dblFraction d = 0 then .zero else .subnormal
  else .normal

/-- `floor(abs(x) + 1/2)` for `x = val(d) * 65536`, on the fields of a finite `d` (R93). A zero or subnormal is below half
a raw unit; a normal has `abs(x) = (2^52 + F) * 2^(E - 1059)`. -/
def dblRawMagnitude (d : Dword) : Nat :=
  let e := dblExponent d
  let sig := 2 ^ 52 + dblFraction d
  if e = 0 then 0
  else if 1059 ≤ e then sig <<< (e - 1059)
  else if 54 ≤ 1059 - e then 0
  else (sig + 2 ^ (1059 - e - 1)) >>> (1059 - e)

/-- A finite binary64 in raw units, rounded half away from zero (R92, R93): the magnitude above under `d`'s sign. -/
def dblRaw (d : Dword) : Int :=
  if dblSign d then -(dblRawMagnitude d : Int) else (dblRawMagnitude d : Int)

/-- `enc64` of `k / 65536` (R96), for a raw value `k`: the leading one of the magnitude gives the exponent, the bits below
it the fraction; zero is plus zero (D29). -/
def encodeDouble (k : Int) : Dword :=
  if k = 0 then 0
  else
    let m := k.natAbs
    let t := m.log2
    BitVec.ofBool (decide (k < 0)) ++ BitVec.ofNat 11 (t - 16 + 1023 : Int).toNat
      ++ BitVec.ofNat 52 ((m - 2 ^ t) <<< (52 - t))

end Sys2Proof.Machine
end

