-- ==== Sys2Proof/Machine/Rounding.lean ====
section
/-! DEFINITION. The shared rounding and saturation unit (40_rounding_saturation.md): round half away from zero on integers
(R81), the same rescale in bit form (R83), and the clamp to 32 bits (R85). Nothing here wraps: the integers are
unbounded (R9), and narrowing happens once, after rounding (R88). -/

namespace Sys2Proof.Machine

/-- `rhafz_div(n, d)` (R81): the truncating quotient (R112), one more in magnitude when twice the remainder reaches the
divisor, in the direction of the sign of the exact quotient. -/
def rhafzDiv (n d : Int) : Int :=
  let q := n.tdiv d
  let r := n - q * d
  if d.natAbs ≤ 2 * r.natAbs then
    if xor (decide (n < 0)) (decide (d < 0)) then q - 1 else q + 1
  else q

/-- The rescale of a 64-bit product by 2^16 in bit form (R83). -/
def rescaleBits (p : Dword) : Int :=
  let hi := (p.extractLsb' 16 48).toInt
  let lo := (p.extractLsb' 0 16).toNat
  if p.msb then
    if 0x8000 < lo then hi + 1 else hi
  else
    if 0x8000 ≤ lo then hi + 1 else hi

/-- `sat32(v)` (R85): the clamped 32-bit value and whether it was clamped. -/
def sat32 (v : Int) : Word × Status :=
  if 2147483647 < v then (fix16Max, .saturated)
  else if v < -2147483648 then (fix16Min, .saturated)
  else (BitVec.ofInt 32 v, .ok)

end Sys2Proof.Machine
end

