-- ==== Sys2Proof/Machine/Ops.lean ====
section
/-! DEFINITION. The named operations of the unit: the result pair of an operation and its error form (R10, R141), the
transitions of the operation slot (R22 to R24, R160), the outputs (R25) and the inputs of an edge (R21). FX16U has no
memory and no register a program can name (R26, R40), so there is no memory or register-file access here. -/

namespace Sys2Proof.Machine

/-- The result pair `(data, status)` that evaluating an operation ends with (R10). -/
structure Result where
  data : Dword
  status : Status
deriving DecidableEq, Repr

/-- Places a 32-bit result: `data = zext_64(r)`, bits 63:32 zero also when `r` is negative (R65). -/
def wordResult (r : Word) (st : Status) : Result := ⟨r.setWidth 64, st⟩

/-- Rounds nothing, clamps and places: the last step of FROM_INT, FROM_DOUBLE, MUL and DIV (R85, R88, R65). -/
def clampedResult (v : Int) : Result := wordResult (sat32 v).1 (sat32 v).2

/-- `raise E` (R10, R141): the one way an operation ends in an error, with data zero and the code of `E`. There is no
trap: nothing is saved and control goes nowhere (R149). There is no return from it either (R150): the error response is
delivered by `State.deliver` like every other, after which the unit is idle. -/
def raise (e : OpError) : Result := ⟨0, e.status⟩

/-- Completion (R23): `(RES, STAT) <- (data, status)` and `ST <- DONE`. -/
def State.complete (r : Result) (s : State) : State :=
  { s with res := r.data, stat := r.status.code, st := .done }

/-- The outcome of a meaning: every operation completes with a result pair (R63, R141). -/
def completeWith (r : Result) (s : State) : Host.Outcome State Fault Refusal := .next (s.complete r)

/-- The request a host presents on the payload ports (R41). -/
def pinsRequest (p : Pins) : Request := ⟨p.reqOp, p.reqA, p.reqB⟩

/-- Accept (R22): the payload ports are latched, the latency count starts, `RES` and `STAT` stay. -/
def State.accept (p : Pins) (s : State) : State :=
  { s with
    op := p.reqOp
    a := p.reqA
    b := p.reqB
    cnt := Config.latency p.reqOp - 1
    st := .busy
    log := .accepted (pinsRequest p) :: s.log }

/-- Count (R23, `CNT > 0`). -/
def State.count (s : State) : State := { s with cnt := s.cnt - 1 }

/-- What `rsp_data` and `rsp_status` show (R25). -/
def State.response (s : State) : Response := ⟨s.res, s.stat⟩

/-- Deliver (R24): the response `(RES, STAT)` goes to the host, `RES` and `STAT` stay. -/
def State.deliver (s : State) : State :=
  { s with st := .idle, log := .delivered s.response :: s.log }

/-- The reset transition (R160): every element of R20 takes its value of R32. -/
def State.resetEdge (s : State) : State :=
  { State.reset with script := s.script, edge := s.edge, log := .resetEdge :: s.log }

/-- The request in the operand latches `OP`, `A`, `B` (R20). -/
def State.request (s : State) : Request := ⟨s.op, s.a, s.b⟩

/-- The operation in the operand latches (R23, R63). -/
def State.instr (s : State) : Instr := decodeFields s.op s.a s.b

/-- The request word `{op, a, b}` (R60). -/
def Request.word (r : Request) : ReqWord := r.op ++ r.a ++ r.b

/-- The response word `{status, data}` (R64). -/
def Response.word (r : Response) : RspWord := r.status ++ r.data

/-- The output ports of R41. -/
structure Outputs where
  reqReady : Bool
  rspValid : Bool
  rspData : Dword
  rspStatus : StatusCode
deriving DecidableEq, Repr

/-- The outputs, functions of the state alone (R25). -/
def State.outputs (s : State) : Outputs :=
  ⟨decide (s.st = .idle), decide (s.st = .done), s.res, s.stat⟩

/-- The inputs just before the `k`-th coming edge (0 is the next one): the script's, and past its end the free value. -/
def State.pinsAt (s : State) (k : Nat) : Pins := (s.script[k]?).getD (Config.hostPins (s.edge + k))

/-- The inputs just before the next edge (R21). -/
def State.pins (s : State) : Pins := s.pinsAt 0

/-- The edge is over: the host goes on to its next input levels. -/
def State.advance (s : State) : State := { s with script := s.script.tail, edge := s.edge + 1 }

/-- An edge's outcome, with the environment moved on. -/
def passEdge : Host.Outcome State Fault Refusal → Host.Outcome State Fault Refusal
  | .next s => .next s.advance
  | .fault r => .fault r
  | .refused r => .refused r

/-- The request in the latches at the last edge of its wait, and a host that does not reset at that edge: the very next
edge completes it. -/
def State.loadRequest (r : Request) (s : State) : State :=
  { s with st := .busy, op := r.op, a := r.a, b := r.b, cnt := 0, script := Pins.quiet :: s.script }

end Sys2Proof.Machine
end

