-- ==== Sys2Proof/Machine/Conversion.lean ====
section
/-! DEFINITION. The conversion pipeline (41_conversion.md): FROM_INT, TO_INT, FROM_DOUBLE, TO_DOUBLE. None reads field b,
none can raise an error. -/

namespace Sys2Proof.Machine

/-- `FROM_INT(a[31:0])` (R90). -/
def fromIntResult (i : Word) : Result := clampedResult (i.toInt * 65536)

/-- `TO_INT(a[31:0])` (R91): floor, by the arithmetic right shift of R9. -/
def toIntResult (x : Word) : Result := wordResult (BitVec.ofInt 32 (x.toInt >>> (16 : Nat))) .ok

/-- `FROM_DOUBLE(d[63:0])` (R92), the finite cases on the fields of `d` (R93). -/
def fromDoubleResult (d : Dword) : Result :=
  match dblClass d with
  | .nan => wordResult Config.nanResult .nanOperand
  | .infinity => wordResult (if dblSign d then fix16Min else fix16Max) .saturated
  | .zero => clampedResult (dblRaw d)
  | .subnormal => clampedResult (dblRaw d)
  | .normal => clampedResult (dblRaw d)

/-- `TO_DOUBLE(a[31:0])` (R95, R96). -/
def toDoubleResult (x : Word) : Result := ⟨encodeDouble x.toInt, .ok⟩

/-- The meaning of `FROM_INT` (R90). -/
def execFromInt (a : Dword) (_b : Word) (s : State) : Host.Outcome State Fault Refusal :=
  completeWith (fromIntResult (lowWord a)) s

/-- The meaning of `TO_INT` (R91). -/
def execToInt (a : Dword) (_b : Word) (s : State) : Host.Outcome State Fault Refusal :=
  completeWith (toIntResult (lowWord a)) s

/-- The meaning of `FROM_DOUBLE` (R92). -/
def execFromDouble (a : Dword) (_b : Word) (s : State) : Host.Outcome State Fault Refusal :=
  completeWith (fromDoubleResult a) s

/-- The meaning of `TO_DOUBLE` (R95). -/
def execToDouble (a : Dword) (_b : Word) (s : State) : Host.Outcome State Fault Refusal :=
  completeWith (toDoubleResult (lowWord a)) s

end Sys2Proof.Machine
end

