-- ==== Sys2Proof/Machine/Divide.lean ====
section
/-! DEFINITION. The fixed-point divider (43_divide.md). -/

namespace Sys2Proof.Machine

/-- The unclamped integer `v` of DIV, `Dv(a, b)` of 44_properties.md, for a divisor that is not zero: the pre-scaled
dividend divided with one rounding (R110). -/
def divRounded (a b : Word) : Int := rhafzDiv (a.toInt * 65536) b.toInt

/-- `DIV(a[31:0], b[31:0])` (R110), a zero divisor raising `DIV_BY_ZERO` whatever the dividend (R113). -/
def divResult (a b : Word) : Result :=
  if b.toInt = 0 then raise .divByZero else clampedResult (divRounded a b)

/-- The meaning of `DIV` (R110). -/
def execDiv (a : Dword) (b : Word) (s : State) : Host.Outcome State Fault Refusal :=
  completeWith (divResult (lowWord a) b) s

end Sys2Proof.Machine
end

