-- ==== Sys2Proof/Machine/Multiply.lean ====
section
/-! DEFINITION. The fixed-point multiplier (42_multiply.md). -/

namespace Sys2Proof.Machine

/-- The unclamped integer `v` of MUL, `Mv(a, b)` of 44_properties.md: the exact product, rescaled with one rounding (R100). -/
def mulRounded (a b : Word) : Int := rhafzDiv (a.toInt * b.toInt) 65536

/-- `MUL(a[31:0], b[31:0])` (R100). -/
def mulResult (a b : Word) : Result := clampedResult (mulRounded a b)

/-- The meaning of `MUL` (R100). -/
def execMul (a : Dword) (b : Word) (s : State) : Host.Outcome State Fault Refusal :=
  completeWith (mulResult (lowWord a) b) s

end Sys2Proof.Machine
end

