-- ==== Sys2Proof/Machine/Reserved.lean ====
section
/-! DEFINITION. The reserved operation codes 6 and 7 (R73, R143): accepted and answered like any other, with
`ILLEGAL_OP`, the operand fields ignored. -/

namespace Sys2Proof.Machine

/-- The meaning of the reserved code 6 (R73). -/
def execOp6 (_a : Dword) (_b : Word) (s : State) : Host.Outcome State Fault Refusal :=
  completeWith (raise .illegalOp) s

/-- The meaning of the reserved code 7 (R73). -/
def execOp7 (_a : Dword) (_b : Word) (s : State) : Host.Outcome State Fault Refusal :=
  completeWith (raise .illegalOp) s

end Sys2Proof.Machine
end

