-- ==== Sys2Proof/Machine/Dispatch.lean ====
section
/-! DEFINITION. The dispatch of R63: one arm per operation code. -/

namespace Sys2Proof.Machine

/-- The completion of one operation (R23, R63): the result pair is written and the response stands ready. -/
def exec (i : Instr) (s : State) : Host.Outcome State Fault Refusal :=
  match i with
  | .fromInt a b => Sys2Proof.Machine.execFromInt a b s
  | .toInt a b => Sys2Proof.Machine.execToInt a b s
  | .fromDouble a b => Sys2Proof.Machine.execFromDouble a b s
  | .toDouble a b => Sys2Proof.Machine.execToDouble a b s
  | .mul a b => Sys2Proof.Machine.execMul a b s
  | .div a b => Sys2Proof.Machine.execDiv a b s
  | .op6 a b => Sys2Proof.Machine.execOp6 a b s
  | .op7 a b => Sys2Proof.Machine.execOp7 a b s

end Sys2Proof.Machine
end

