-- ==== Sys2Proof/Machine/Clock.lean ====
section
/-! DEFINITION. One rising edge of the clock (R21). -/

namespace Sys2Proof.Machine

/-- The unit at one edge under the inputs `p` (R21): reset before everything, then the one transition the phase allows,
else nothing. In `BUSY` with no edge left to wait the operation in the latches completes (R23). -/
def clockEdge (p : Pins) (s : State) : Host.Outcome State Fault Refusal :=
  if p.rst then .next s.resetEdge
  else
    match s.st with
    | .idle => .next (if p.reqValid then s.accept p else s)
    | .busy => if 0 < s.cnt then .next s.count else exec s.instr s
    | .done => .next (if p.rspReady then s.deliver else s)

end Sys2Proof.Machine
end

