-- ==== Sys2Proof/Machine/Step.lean ====
section
/-! DEFINITION. The step of the machine: one rising edge of `clk` under the inputs the host drives at it (R13, R21). -/

namespace Sys2Proof.Machine

/-- One rising edge of `clk`. -/
def step (s : State) : Host.Outcome State Fault Refusal := passEdge (clockEdge s.pins s)

/-- The request word `w` (every bit from `nbits` on is 0) stands in the latches and the next edge completes it. -/
def State.withFetchWord (s : State) (nbits w : Nat) : State :=
  let v : ReqWord := BitVec.ofNat 99 (w % 2 ^ nbits)
  s.loadRequest ⟨reqOpField v, reqAField v, reqBField v⟩

end Sys2Proof.Machine
end

