-- ==== Sys2Proof/Laws/State.lean ====
section
/-! SUPPORT. One lemma per field per update of State, so that no later proof unfolds a record update; the three readings of
a state that depend on the seven elements alone follow them. -/

namespace Sys2Proof.Machine

@[simp] theorem State.complete_st (r : Result) (s : State) : (s.complete r).st = .done := rfl
@[simp] theorem State.complete_op (r : Result) (s : State) : (s.complete r).op = s.op := rfl
@[simp] theorem State.complete_a (r : Result) (s : State) : (s.complete r).a = s.a := rfl
@[simp] theorem State.complete_b (r : Result) (s : State) : (s.complete r).b = s.b := rfl
@[simp] theorem State.complete_cnt (r : Result) (s : State) : (s.complete r).cnt = s.cnt := rfl
@[simp] theorem State.complete_res (r : Result) (s : State) : (s.complete r).res = r.data := rfl
@[simp] theorem State.complete_stat (r : Result) (s : State) : (s.complete r).stat = r.status.code := rfl
@[simp] theorem State.complete_script (r : Result) (s : State) : (s.complete r).script = s.script := rfl
@[simp] theorem State.complete_edge (r : Result) (s : State) : (s.complete r).edge = s.edge := rfl
@[simp] theorem State.complete_log (r : Result) (s : State) : (s.complete r).log = s.log := rfl

@[simp] theorem State.accept_st (p : Pins) (s : State) : (s.accept p).st = .busy := rfl
@[simp] theorem State.accept_op (p : Pins) (s : State) : (s.accept p).op = p.reqOp := rfl
@[simp] theorem State.accept_a (p : Pins) (s : State) : (s.accept p).a = p.reqA := rfl
@[simp] theorem State.accept_b (p : Pins) (s : State) : (s.accept p).b = p.reqB := rfl
@[simp] theorem State.accept_cnt (p : Pins) (s : State) : (s.accept p).cnt = Config.latency p.reqOp - 1 := rfl
@[simp] theorem State.accept_res (p : Pins) (s : State) : (s.accept p).res = s.res := rfl
@[simp] theorem State.accept_stat (p : Pins) (s : State) : (s.accept p).stat = s.stat := rfl
@[simp] theorem State.accept_script (p : Pins) (s : State) : (s.accept p).script = s.script := rfl
@[simp] theorem State.accept_edge (p : Pins) (s : State) : (s.accept p).edge = s.edge := rfl
@[simp] theorem State.accept_log (p : Pins) (s : State) : (s.accept p).log = .accepted (pinsRequest p) :: s.log := rfl

@[simp] theorem State.count_st (s : State) : (s.count).st = s.st := rfl
@[simp] theorem State.count_op (s : State) : (s.count).op = s.op := rfl
@[simp] theorem State.count_a (s : State) : (s.count).a = s.a := rfl
@[simp] theorem State.count_b (s : State) : (s.count).b = s.b := rfl
@[simp] theorem State.count_cnt (s : State) : (s.count).cnt = s.cnt - 1 := rfl
@[simp] theorem State.count_res (s : State) : (s.count).res = s.res := rfl
@[simp] theorem State.count_stat (s : State) : (s.count).stat = s.stat := rfl
@[simp] theorem State.count_script (s : State) : (s.count).script = s.script := rfl
@[simp] theorem State.count_edge (s : State) : (s.count).edge = s.edge := rfl
@[simp] theorem State.count_log (s : State) : (s.count).log = s.log := rfl

@[simp] theorem State.deliver_st (s : State) : (s.deliver).st = .idle := rfl
@[simp] theorem State.deliver_op (s : State) : (s.deliver).op = s.op := rfl
@[simp] theorem State.deliver_a (s : State) : (s.deliver).a = s.a := rfl
@[simp] theorem State.deliver_b (s : State) : (s.deliver).b = s.b := rfl
@[simp] theorem State.deliver_cnt (s : State) : (s.deliver).cnt = s.cnt := rfl
@[simp] theorem State.deliver_res (s : State) : (s.deliver).res = s.res := rfl
@[simp] theorem State.deliver_stat (s : State) : (s.deliver).stat = s.stat := rfl
@[simp] theorem State.deliver_script (s : State) : (s.deliver).script = s.script := rfl
@[simp] theorem State.deliver_edge (s : State) : (s.deliver).edge = s.edge := rfl
@[simp] theorem State.deliver_log (s : State) : (s.deliver).log = .delivered s.response :: s.log := rfl

@[simp] theorem State.resetEdge_st (s : State) : (s.resetEdge).st = .idle := rfl
@[simp] theorem State.resetEdge_op (s : State) : (s.resetEdge).op = 0 := rfl
@[simp] theorem State.resetEdge_a (s : State) : (s.resetEdge).a = 0 := rfl
@[simp] theorem State.resetEdge_b (s : State) : (s.resetEdge).b = 0 := rfl
@[simp] theorem State.resetEdge_cnt (s : State) : (s.resetEdge).cnt = 0 := rfl
@[simp] theorem State.resetEdge_res (s : State) : (s.resetEdge).res = 0 := rfl
@[simp] theorem State.resetEdge_stat (s : State) : (s.resetEdge).stat = 0 := rfl
@[simp] theorem State.resetEdge_script (s : State) : (s.resetEdge).script = s.script := rfl
@[simp] theorem State.resetEdge_edge (s : State) : (s.resetEdge).edge = s.edge := rfl
@[simp] theorem State.resetEdge_log (s : State) : (s.resetEdge).log = .resetEdge :: s.log := rfl

@[simp] theorem State.advance_st (s : State) : (s.advance).st = s.st := rfl
@[simp] theorem State.advance_op (s : State) : (s.advance).op = s.op := rfl
@[simp] theorem State.advance_a (s : State) : (s.advance).a = s.a := rfl
@[simp] theorem State.advance_b (s : State) : (s.advance).b = s.b := rfl
@[simp] theorem State.advance_cnt (s : State) : (s.advance).cnt = s.cnt := rfl
@[simp] theorem State.advance_res (s : State) : (s.advance).res = s.res := rfl
@[simp] theorem State.advance_stat (s : State) : (s.advance).stat = s.stat := rfl
@[simp] theorem State.advance_script (s : State) : (s.advance).script = s.script.tail := rfl
@[simp] theorem State.advance_edge (s : State) : (s.advance).edge = s.edge + 1 := rfl
@[simp] theorem State.advance_log (s : State) : (s.advance).log = s.log := rfl

@[simp] theorem State.loadRequest_st (r : Request) (s : State) : (s.loadRequest r).st = .busy := rfl
@[simp] theorem State.loadRequest_op (r : Request) (s : State) : (s.loadRequest r).op = r.op := rfl
@[simp] theorem State.loadRequest_a (r : Request) (s : State) : (s.loadRequest r).a = r.a := rfl
@[simp] theorem State.loadRequest_b (r : Request) (s : State) : (s.loadRequest r).b = r.b := rfl
@[simp] theorem State.loadRequest_cnt (r : Request) (s : State) : (s.loadRequest r).cnt = 0 := rfl
@[simp] theorem State.loadRequest_res (r : Request) (s : State) : (s.loadRequest r).res = s.res := rfl
@[simp] theorem State.loadRequest_stat (r : Request) (s : State) : (s.loadRequest r).stat = s.stat := rfl
@[simp] theorem State.loadRequest_script (r : Request) (s : State) : (s.loadRequest r).script = Pins.quiet :: s.script := rfl
@[simp] theorem State.loadRequest_edge (r : Request) (s : State) : (s.loadRequest r).edge = s.edge := rfl
@[simp] theorem State.loadRequest_log (r : Request) (s : State) : (s.loadRequest r).log = s.log := rfl

@[simp] theorem State.complete_request (r : Result) (s : State) : (s.complete r).request = s.request := rfl
@[simp] theorem State.complete_response (r : Result) (s : State) :
    (s.complete r).response = ⟨r.data, r.status.code⟩ := rfl
@[simp] theorem State.accept_request (p : Pins) (s : State) : (s.accept p).request = pinsRequest p := rfl
@[simp] theorem State.accept_response (p : Pins) (s : State) : (s.accept p).response = s.response := rfl
@[simp] theorem State.count_request (s : State) : (s.count).request = s.request := rfl
@[simp] theorem State.count_response (s : State) : (s.count).response = s.response := rfl
@[simp] theorem State.deliver_request (s : State) : (s.deliver).request = s.request := rfl
@[simp] theorem State.deliver_response (s : State) : (s.deliver).response = s.response := rfl
@[simp] theorem State.resetEdge_response (s : State) : s.resetEdge.response = ⟨0, 0⟩ := rfl
@[simp] theorem State.advance_request (s : State) : (s.advance).request = s.request := rfl
@[simp] theorem State.advance_response (s : State) : (s.advance).response = s.response := rfl
@[simp] theorem State.loadRequest_request (r : Request) (s : State) : (s.loadRequest r).request = r := rfl
@[simp] theorem State.loadRequest_response (r : Request) (s : State) : (s.loadRequest r).response = s.response := rfl

/-- A state is its seven elements and the model's three fields. -/
@[ext] theorem State.ext_fields {s t : State} (st : s.st = t.st) (op : s.op = t.op) (a : s.a = t.a) (b : s.b = t.b)
    (cnt : s.cnt = t.cnt) (res : s.res = t.res) (stat : s.stat = t.stat) (script : s.script = t.script)
    (edge : s.edge = t.edge) (log : s.log = t.log) : s = t := by
  cases s
  cases t
  simp_all

/-- Completing again with the same result changes nothing. -/
@[simp] theorem State.complete_complete (r q : Result) (s : State) : (s.complete q).complete r = s.complete r := rfl

/-- The inputs of an edge seen from the state after the edge before it. -/
@[simp] theorem State.advance_pinsAt (s : State) (k : Nat) : s.advance.pinsAt k = s.pinsAt (k + 1) := by
  simp [State.pinsAt, Nat.add_assoc, Nat.add_comm 1 k]

end Sys2Proof.Machine
end

