-- ==== Sys2Proof/Laws/Ops.lean ====
section
/-! SUPPORT. For each shared operation, what it can do, said once: later proofs cite these and unfold nothing. -/

namespace Sys2Proof.Machine

/-! ## Meanings and the edge -/

theorem completeWith_eq_next {r : Result} {s t : State} (h : completeWith r s = .next t) : t = s.complete r := by
  injection h with h
  exact h.symm

theorem exec_fromInt (a : Dword) (b : Word) (s : State) :
    exec (.fromInt a b) s = .next (s.complete (fromIntResult (lowWord a))) := rfl

theorem exec_toInt (a : Dword) (b : Word) (s : State) :
    exec (.toInt a b) s = .next (s.complete (toIntResult (lowWord a))) := rfl

theorem exec_fromDouble (a : Dword) (b : Word) (s : State) :
    exec (.fromDouble a b) s = .next (s.complete (fromDoubleResult a)) := rfl

theorem exec_toDouble (a : Dword) (b : Word) (s : State) :
    exec (.toDouble a b) s = .next (s.complete (toDoubleResult (lowWord a))) := rfl

theorem exec_mul (a : Dword) (b : Word) (s : State) :
    exec (.mul a b) s = .next (s.complete (mulResult (lowWord a) b)) := rfl

theorem exec_div (a : Dword) (b : Word) (s : State) :
    exec (.div a b) s = .next (s.complete (divResult (lowWord a) b)) := rfl

theorem exec_op6 (a : Dword) (b : Word) (s : State) : exec (.op6 a b) s = .next (s.complete (raise .illegalOp)) := rfl

theorem exec_op7 (a : Dword) (b : Word) (s : State) : exec (.op7 a b) s = .next (s.complete (raise .illegalOp)) := rfl

/-- An edge ends in a next state exactly when the unit does, with the environment moved on. -/
theorem passEdge_eq_next {o : Host.Outcome State Fault Refusal} {t : State} :
    passEdge o = .next t ↔ ∃ u, o = .next u ∧ t = u.advance := by
  cases o with
  | next u =>
    constructor
    · intro h
      injection h with h
      exact ⟨u, rfl, h.symm⟩
    · rintro ⟨v, h, rfl⟩
      injection h with h
      rw [h]
      rfl
  | fault r => nomatch r
  | refused r =>
    constructor
    · intro h
      nomatch h
    · rintro ⟨v, h, _⟩
      nomatch h

/-- Everything the unit can do at one edge (R21), each case with its condition. -/
theorem clockEdge_cases {p : Pins} {s t : State} (h : clockEdge p s = .next t) :
    (p.rst = true ∧ t = s.resetEdge) ∨
    (p.rst = false ∧ s.st = .idle ∧ p.reqValid = true ∧ t = s.accept p) ∨
    (p.rst = false ∧ s.st = .idle ∧ p.reqValid = false ∧ t = s) ∨
    (p.rst = false ∧ s.st = .busy ∧ 0 < s.cnt ∧ t = s.count) ∨
    (p.rst = false ∧ s.st = .busy ∧ s.cnt = 0 ∧ exec s.instr s = .next t) ∨
    (p.rst = false ∧ s.st = .done ∧ p.rspReady = true ∧ t = s.deliver) ∨
    (p.rst = false ∧ s.st = .done ∧ p.rspReady = false ∧ t = s) := by
  unfold clockEdge at h
  cases hr : p.rst with
  | true =>
    simp only [hr, if_true, Host.Outcome.next.injEq] at h
    exact .inl ⟨rfl, h.symm⟩
  | false =>
    simp only [hr, Bool.false_eq_true, if_false] at h
    cases hs : s.st with
    | idle =>
      cases hv : p.reqValid <;> simp_all
    | busy =>
      by_cases hc : 0 < s.cnt
      · simp_all
      · simp_all
    | done =>
      cases hv : p.rspReady <;> simp_all

/-! ## The two stages of the arithmetic -/

/-- What `sat32` can answer (R85). -/
theorem sat32_cases (v : Int) :
    (2147483647 < v ∧ sat32 v = (fix16Max, .saturated)) ∨
    (v < -2147483648 ∧ sat32 v = (fix16Min, .saturated)) ∨
    (-2147483648 ≤ v ∧ v ≤ 2147483647 ∧ sat32 v = (BitVec.ofInt 32 v, .ok)) := by
  unfold sat32
  split
  · exact .inl ⟨by assumption, rfl⟩
  · split
    · exact .inr (.inl ⟨by assumption, rfl⟩)
    · exact .inr (.inr ⟨by omega, by omega, rfl⟩)

/-- A value in range passes `sat32` unchanged (R85). -/
theorem sat32_of_mem {v : Int} (lo : -2147483648 ≤ v) (hi : v ≤ 2147483647) : sat32 v = (BitVec.ofInt 32 v, .ok) := by
  have h1 : ¬ (2147483647 < v) := by omega
  have h2 : ¬ (v < -2147483648) := by omega
  simp [sat32, h1, h2]

/-! ## Result pairs -/

/-- What a placed result says about itself (R65). -/
@[simp] theorem lowWord_wordResult (r : Word) (st : Status) : lowWord (wordResult r st).data = r := by
  apply BitVec.eq_of_getLsbD_eq
  intro i hi
  have hw : i < 64 := by omega
  simp [lowWord, wordResult, hi, hw]

@[simp] theorem wordResult_status (r : Word) (st : Status) : (wordResult r st).status = st := rfl

@[simp] theorem lowWord_clampedResult (v : Int) : lowWord (clampedResult v).data = (sat32 v).1 := lowWord_wordResult _ _

@[simp] theorem clampedResult_status (v : Int) : (clampedResult v).status = (sat32 v).2 := rfl

@[simp] theorem raise_data (e : OpError) : (raise e).data = 0 := rfl

@[simp] theorem raise_status (e : OpError) : (raise e).status = e.status := rfl

/-! ## The request word -/

/-- The bits of a request word (R60): `b` below, then `a`, then `op`. -/
theorem getLsbD_request (op : OpCode) (a : Dword) (b : Word) (k : Nat) :
    BitVec.getLsbD (w := 99) (op ++ a ++ b) k =
      if k < 32 then b.getLsbD k else if k - 32 < 64 then a.getLsbD (k - 32) else op.getLsbD (k - 32 - 64) := by
  have outer := BitVec.getLsbD_append (x := op ++ a) (y := b) (i := k)
  have inner := BitVec.getLsbD_append (x := op) (y := a) (i := k - 32)
  rw [inner] at outer
  exact outer

@[simp] theorem reqOpField_append (op : OpCode) (a : Dword) (b : Word) : reqOpField (op ++ a ++ b) = op := by
  apply BitVec.eq_of_getLsbD_eq
  intro i hi
  have h1 : ¬ (96 + i < 32) := by omega
  have h2 : ¬ (96 + i - 32 < 64) := by omega
  have h3 : 96 + i - 32 - 64 = i := by omega
  rw [reqOpField, BitVec.getLsbD_extractLsb', getLsbD_request, if_neg h1, if_neg h2, h3]
  simp [hi]

@[simp] theorem reqAField_append (op : OpCode) (a : Dword) (b : Word) : reqAField (op ++ a ++ b) = a := by
  apply BitVec.eq_of_getLsbD_eq
  intro i hi
  have h1 : ¬ (32 + i < 32) := by omega
  have h2 : 32 + i - 32 < 64 := by omega
  have h3 : 32 + i - 32 = i := by omega
  rw [reqAField, BitVec.getLsbD_extractLsb', getLsbD_request, if_neg h1, if_pos h2, h3]
  simp [hi]

@[simp] theorem reqBField_append (op : OpCode) (a : Dword) (b : Word) : reqBField (op ++ a ++ b) = b := by
  apply BitVec.eq_of_getLsbD_eq
  intro i hi
  have h1 : 0 + i < 32 := by omega
  rw [reqBField, BitVec.getLsbD_extractLsb', getLsbD_request, if_pos h1]
  simp [hi]

end Sys2Proof.Machine
end

