-- ==== Sys2Proof/Laws/PerInstr.lean ====
section
/-! SUPPORT. Families of statements about every instruction as syntax, one lemma per constructor. -/

namespace Sys2Proof.Laws

/-- The encoder puts the operation code and the two operand fields where R60 says. -/
def EncodeFields.Statement (i : Instr) : Prop :=
  reqOpField (encode i) = i.opCode ∧ reqAField (encode i) = i.fieldA ∧ reqBField (encode i) = i.fieldB

theorem EncodeFields.of_append (i : Instr) : EncodeFields.Statement i :=
  ⟨Machine.reqOpField_append .., Machine.reqAField_append .., Machine.reqBField_append ..⟩

theorem EncodeFields.fromInt (a : Dword) (b : Word) : EncodeFields.Statement (.fromInt a b) := of_append _
theorem EncodeFields.toInt (a : Dword) (b : Word) : EncodeFields.Statement (.toInt a b) := of_append _
theorem EncodeFields.fromDouble (a : Dword) (b : Word) : EncodeFields.Statement (.fromDouble a b) := of_append _
theorem EncodeFields.toDouble (a : Dword) (b : Word) : EncodeFields.Statement (.toDouble a b) := of_append _
theorem EncodeFields.mul (a : Dword) (b : Word) : EncodeFields.Statement (.mul a b) := of_append _
theorem EncodeFields.div (a : Dword) (b : Word) : EncodeFields.Statement (.div a b) := of_append _
theorem EncodeFields.op6 (a : Dword) (b : Word) : EncodeFields.Statement (.op6 a b) := of_append _
theorem EncodeFields.op7 (a : Dword) (b : Word) : EncodeFields.Statement (.op7 a b) := of_append _

/-- The assembled form of an operation has every ignored bit zero (R75). -/
def AssembledWf.Statement (i : Instr) : Prop := i.assembled.wf = true

theorem AssembledWf.upperHalfZero_clear (a : Dword) : upperHalfZero (clearUpperHalf a) = true := by
  have h : (clearUpperHalf a).extractLsb' 32 32 = 0 := by
    ext i hi
    simp [clearUpperHalf]
  simp [upperHalfZero, h]

theorem AssembledWf.fromInt (a : Dword) (b : Word) : AssembledWf.Statement (.fromInt a b) := by
  simp [Statement, Instr.assembled, Instr.wf, upperHalfZero_clear]
theorem AssembledWf.toInt (a : Dword) (b : Word) : AssembledWf.Statement (.toInt a b) := by
  simp [Statement, Instr.assembled, Instr.wf, upperHalfZero_clear]
theorem AssembledWf.fromDouble (a : Dword) (b : Word) : AssembledWf.Statement (.fromDouble a b) := by
  simp [Statement, Instr.assembled, Instr.wf]
theorem AssembledWf.toDouble (a : Dword) (b : Word) : AssembledWf.Statement (.toDouble a b) := by
  simp [Statement, Instr.assembled, Instr.wf, upperHalfZero_clear]
theorem AssembledWf.mul (a : Dword) (b : Word) : AssembledWf.Statement (.mul a b) := by
  simp [Statement, Instr.assembled, Instr.wf, upperHalfZero_clear]
theorem AssembledWf.div (a : Dword) (b : Word) : AssembledWf.Statement (.div a b) := by
  simp [Statement, Instr.assembled, Instr.wf, upperHalfZero_clear]
theorem AssembledWf.op6 (a : Dword) (b : Word) : AssembledWf.Statement (.op6 a b) := by
  simp [Statement, Instr.assembled, Instr.wf]
theorem AssembledWf.op7 (a : Dword) (b : Word) : AssembledWf.Statement (.op7 a b) := by
  simp [Statement, Instr.assembled, Instr.wf]

end Sys2Proof.Laws
end

