-- ==== Sys2Proof/Machine/Reference.lean ====
section
/-! DEFINITION. The exact real-number side of the spec, on rationals: the real value of a Fix16 (R9, R68), the value of a
binary64 (R71), round half away from zero (R80) and the reference function `FD` (R94). No meaning of an operation uses
this file: the machine computes on integers (R81, R93, R96), and claims compare the two. -/

namespace Sys2Proof.Machine

/-- `real(a)`, the rational `sint(a) / 65536` (R9, R68). -/
def fix16Value (x : Word) : ℚ := (x.toInt : ℚ) / 65536

/-- `val(d)` (R71), for the patterns that have a value. -/
def dblValue (d : Dword) : Option ℚ :=
  let s : ℚ := if dblSign d then -1 else 1
  let e := dblExponent d
  let f : ℚ := dblFraction d
  if e = 2047 then none
  else if e = 0 then some (s * f * (2 : ℚ) ^ (-1074 : ℤ))
  else some (s * (2 ^ 52 + f) * (2 : ℚ) ^ ((e : ℤ) - 1075))

/-- `rhafz(x)` (R80): the nearest integer, a tie going to the larger magnitude. -/
def rhafz (x : ℚ) : ℤ := (SignType.sign x : ℤ) * ⌊|x| + 1 / 2⌋

/-- `FD(x)` (R94): an exact real in raw units, rounded and then clamped (R88). -/
def realToFix16 (x : ℚ) : Result := clampedResult (rhafz (x * 65536))

end Sys2Proof.Machine
end

