-- ==== Sys2Proof/Machine/HostScript.lean ====
section
/-! DEFINITION. Requests as the assembler notation writes them (R75) and host scripts (R77). "Scripts are a notation of this
spec ...; the hardware knows nothing of them": the machine uses nothing of this file. -/

namespace Sys2Proof.Machine

/-- The response to a request: what its completion writes to `RES` and `STAT` (R23, R63), read off a completion at the
reset state (the result depends on nothing but the request, R31). -/
def responseTo (r : Request) : Option Response :=
  match exec (decodeFields r.op r.a r.b) State.reset with
  | .next t => some t.response
  | .fault _ => none
  | .refused _ => none

/-- An operand of a script line (R77): a literal, or `vJ`, the data of line J's response. -/
inductive SrcOperand where
  | lit (v : Dword)
  | line (j : Nat)
deriving DecidableEq, Repr

/-- One line of assembler notation (R75) with script operands (R77). -/
inductive Line where
  | fromInt (i : SrcOperand)
  | toInt (x : SrcOperand)
  | fromDouble (d : SrcOperand)
  | toDouble (x : SrcOperand)
  | mul (x y : SrcOperand)
  | div (x y : SrcOperand)
  | op6
  | op7
deriving DecidableEq, Repr

/-- The 64 bits an operand stands for, given the responses so far (R77). -/
def SrcOperand.value (vs : List Response) : SrcOperand → Option Dword
  | .lit v => some v
  | .line j => vs[j]?.map Response.data

/-- The operation a line requests, every ignored bit zero (R75): a binary64 operand is used whole, any other is
`rsp_data[31:0]` of an earlier line or a 32-bit literal (R77). Lines count from 0, as 95_test_vectors.md numbers them. -/
def Line.instr (vs : List Response) : Line → Option Instr
  | .fromInt i => (i.value vs).map fun a => (Instr.fromInt a 0).assembled
  | .toInt x => (x.value vs).map fun a => (Instr.toInt a 0).assembled
  | .fromDouble d => (d.value vs).map fun a => (Instr.fromDouble a 0).assembled
  | .toDouble x => (x.value vs).map fun a => (Instr.toDouble a 0).assembled
  | .mul x y => (x.value vs).bind fun a => (y.value vs).map fun b => (Instr.mul a (lowWord b)).assembled
  | .div x y => (x.value vs).bind fun a => (y.value vs).map fun b => (Instr.div a (lowWord b)).assembled
  | .op6 => some (.op6 0 0)
  | .op7 => some (.op7 0 0)

/-- The three port fields that request an operation (R60). -/
def requestOf (i : Instr) : Request := ⟨i.opCode, i.fieldA, i.fieldB⟩

/-- The request of a line (R75, R77). -/
def Line.request (vs : List Response) (l : Line) : Option Request := (l.instr vs).map requestOf

/-- The responses of a script, line by line, after the responses `vs` of the lines before it (R77); `none` when a line
names a line that has not run. -/
def scriptResponses : List Response → List Line → Option (List Response)
  | vs, [] => some vs
  | vs, l :: ls =>
    match (l.request vs).bind responseTo with
    | some q => scriptResponses (vs ++ [q]) ls
    | none => none

/-- A call of the source's functions, its arguments literals or calls (R76). -/
inductive Call where
  | literal (v : Dword)
  | fromInt (i : Call)
  | toInt (x : Call)
  | fromDouble (d : Call)
  | toDouble (x : Call)
  | mul (x y : Call)
  | div (x y : Call)
deriving DecidableEq, Repr

/-- The script lines of a call whose first line has the number `n`, and the operand its value is: inner calls come first,
and the host copies the data of an inner response into the outer request (R76). DESIGN CHOICE (log entry 22): of two inner
calls the left argument's lines come first, an order that R76 does not give. -/
def Call.lines (n : Nat) : Call → List Line × SrcOperand
  | .literal v => ([], .lit v)
  | .fromInt x => ((x.lines n).1 ++ [.fromInt (x.lines n).2], .line (n + (x.lines n).1.length))
  | .toInt x => ((x.lines n).1 ++ [.toInt (x.lines n).2], .line (n + (x.lines n).1.length))
  | .fromDouble x => ((x.lines n).1 ++ [.fromDouble (x.lines n).2], .line (n + (x.lines n).1.length))
  | .toDouble x => ((x.lines n).1 ++ [.toDouble (x.lines n).2], .line (n + (x.lines n).1.length))
  | .mul x y =>
    let k := n + (x.lines n).1.length
    ((x.lines n).1 ++ (y.lines k).1 ++ [.mul (x.lines n).2 (y.lines k).2], .line (k + (y.lines k).1.length))
  | .div x y =>
    let k := n + (x.lines n).1.length
    ((x.lines n).1 ++ (y.lines k).1 ++ [.div (x.lines n).2 (y.lines k).2], .line (k + (y.lines k).1.length))

/-- The value of a call in an equation of the source: `rsp_data[31:0]` of its response (R76). -/
def Call.raw (c : Call) : Option Word :=
  (scriptResponses [] (c.lines 0).1).bind fun vs => ((c.lines 0).2.value vs).map lowWord

/-- What a host drives to perform one request (R77, R171): present it for one edge, wait `LATENCY(op)` edges, take the
response at the next. -/
def hostEdges (r : Request) : List Pins :=
  ⟨false, true, r.op, r.a, r.b, false⟩ ::
    (List.replicate (Config.latency r.op) Pins.quiet ++ [⟨false, false, 0, 0, 0, true⟩])

/-- The transfers of performing one request, the latest first. -/
def hostEvents (r : Request) : List Event :=
  (responseTo r).toList.map .delivered ++ [.accepted r]

end Sys2Proof.Machine
end

