-- ==== Sys2Proof/Safety.lean ====
section
/-! DEFINITION. What counts as a safe run of FX16U, in the terms claims use: the transfers on the two channels are in order
and each response answers its request (R34, R48), and the state elements stand in the relation the rules keep them in. -/

namespace Sys2Proof.Machine

/-- What the unit owes the host after the events of a log (the latest first): `none` if the log is no legal sequence of
transfers, else the request not yet answered, if there is one. A request is accepted only when none is outstanding, a
response is delivered only for the outstanding request and is that request's response, and a reset loses what is
outstanding (R34, R48, R161). -/
def outstanding : List Event → Option (Option Request)
  | [] => some none
  | .accepted r :: l =>
    match outstanding l with
    | some none => some (some r)
    | _ => none
  | .delivered q :: l =>
    match outstanding l with
    | some (some r) => if responseTo r = some q then some none else none
    | _ => none
  | .resetEdge :: l =>
    match outstanding l with
    | some _ => some none
    | none => none

/-- What the response ports show outside `DONE` (R25): the latest delivered response, or zero since the last reset. -/
def lastShown : List Event → Response
  | [] => ⟨0, 0⟩
  | .accepted _ :: l => lastShown l
  | .delivered q :: _ => q
  | .resetEdge :: _ => ⟨0, 0⟩

/-- The request the unit holds, if it holds one (R20, R48). -/
def State.held (s : State) : Option Request := if s.st = .idle then none else some s.request

/-- The invariant of the unit. -/
structure State.Inv (s : State) : Prop where
  /-- In `BUSY` fewer edges than the operation's latency are still to wait (R20, R22). -/
  wait : s.st = .busy → s.cnt < Config.latency s.op
  /-- In `DONE` the response ports show the response to the accepted request (R34). -/
  answered : s.st = .done → responseTo s.request = some s.response
  /-- Outside `DONE` they show the latest response, or zero since reset (R25). -/
  shown : s.st ≠ .done → s.response = lastShown s.log
  /-- `STAT` holds one of the five codes (R66). -/
  legalStatus : (Status.ofCode s.stat).isSome = true
  /-- An error response carries data zero (R65, R66). -/
  errorData : isErrorCode s.stat = true → s.res = 0
  /-- The channels: one response per accepted request, in order, one at a time (R34, R48). -/
  channel : outstanding s.log = some s.held

/-- Two states with the same seven elements of R20. -/
def SameUnit (s t : State) : Prop :=
  s.st = t.st ∧ s.op = t.op ∧ s.a = t.a ∧ s.b = t.b ∧ s.cnt = t.cnt ∧ s.res = t.res ∧ s.stat = t.stat

/-- `n` rising edges of the clock, one step each. -/
def edges : Nat → State → Host.Outcome State Fault Refusal
  | 0, s => .next s
  | n + 1, s =>
    match step s with
    | .next t => edges n t
    | .fault r => .fault r
    | .refused r => .refused r

/-- The states of a run: it begins at the reset state (R33, R163), whatever the host will drive, and goes on by steps. -/
inductive Reachable : State → Prop where
  | reset (script : List Pins) : Reachable { State.reset with script := script }
  | step (s t : State) : Reachable s → Machine.step s = .next t → Reachable t

end Sys2Proof.Machine
end

