-- ==== Sys2Proof/Certificates/Slice0/Obligations.lean ====
section
/-! DEFINITION. The statements about FX16U for the provers. A next state is written out field by field over the state before
it, so that a statement of an effect is also the statement of its frame: what the update does not name is unchanged. The fields
`script`, `edge` and `log` are the model's own choice (log entries 3 and 5): what a statement says of them rests on no rule. -/

open Sys2Proof Sys2Proof.Machine

/-! ## Encoding -/

/-- Decoding and encoding are inverse to each other, on every operation with every value of both operand fields and on
every one of the 2^99 request words (R60, R61, R63). -/
def Obligations.DecodeEncodeInverse : Prop :=
  (∀ i : Instr, decodeRequest (encode i) = i) ∧ (∀ w : ReqWord, encode (decodeRequest w) = w)

/-- A number is read as a request exactly when it has at most 99 bits, and then the row it selects is the one whose match
agrees with the number under the mask of bits 98:96 (R60, R61). That a larger number is rejected by name is the model's
choice (log entry 7). -/
def Obligations.MaskAndMatchSelectTheRow : Prop :=
  ∀ n : Nat,
    (2 ^ 99 ≤ n → decodeWord n = .error .notARequestWord) ∧
    (n < 2 ^ 99 → ∃ i, decodeWord n = .ok i ∧
      n &&& 0x7000000000000000000000000 = i.opCode.toNat * 2 ^ 96 ∧
      i.fieldA.toNat = n / 2 ^ 32 % 2 ^ 64 ∧ i.fieldB.toNat = n % 2 ^ 32)

/-- One request word of each row, as 95_test_vectors.md writes them, decodes to its operation and operands. -/
def Obligations.WrittenWordsDecode : Prop :=
  decodeWord 0x0000000000000000200000000 = .ok (.fromInt 2 0) ∧
  decodeWord 0x100000000FFFC400000000000 = .ok (.toInt 0xFFFC4000 0) ∧
  decodeWord 0x2400C00000000000000000000 = .ok (.fromDouble 0x400C000000000000 0) ∧
  decodeWord 0x3000000000001800000000000 = .ok (.toDouble 0x00018000 0) ∧
  decodeWord 0x4000000000003800000024000 = .ok (.mul 0x00038000 0x00024000) ∧
  decodeWord 0x5000000000007000000020000 = .ok (.div 0x00070000 0x00020000) ∧
  decodeWord 0x600000000FFFFFFFFFFFFFFFF = .ok (.op6 0x00000000FFFFFFFF 0xFFFFFFFF) ∧
  decodeWord 0x7000000000000000000000000 = .ok (.op7 0 0)

/-! ## The edge -/

/-- At the last edge of an operation's wait, with `rst = 0`, the step is the completion of the operation that the request
word in the latches decodes to; around it the step only moves the environment on (R21, R23, R63), which is the
model's choice (log entry 3). -/
def Obligations.StepRunsTheLatchedOperation : Prop :=
  ∀ s : State, s.pins.rst = false → s.st = .busy → s.cnt = 0 →
    step s =
      match exec (decodeRequest s.request.word) s with
      | .next t => .next { t with script := t.script.tail, edge := t.edge + 1 }
      | .fault r => .fault r
      | .refused r => .refused r

/-- The model's interface for placing a request (log entry 4): what the decoder reads from the table's word is what the
next step completes. -/
def Obligations.PlacedWordRunsNext : Prop :=
  ∀ (s : State) (nbits w : Nat) (i : Instr), decodeTableWord nbits w = some i →
    step (s.withFetchWord nbits w) = passEdge (exec i (s.withFetchWord nbits w)) ∧
    ∃ t, step (s.withFetchWord nbits w) = .next t ∧ t.st = .done ∧ t.script = s.script

/-- The reset transition (R160): at an edge with `rst = 1`, whatever the state and the other inputs, every element takes
its value of R32, and the outputs are those R32 names. What becomes of `script`, `edge` and `log` is the model's choice (log
entries 3 and 5). -/
def Obligations.ResetEdgeRestoresEveryElement : Prop :=
  ∀ s : State, s.pins.rst = true →
    ∃ t, step s = .next t ∧
      t = { st := .idle, op := 0, a := 0, b := 0, cnt := 0, res := 0, stat := 0,
            script := s.script.tail, edge := s.edge + 1, log := .resetEdge :: s.log } ∧
      t.outputs = { reqReady := true, rspValid := false, rspData := 0, rspStatus := 0 }

/-- Right after a reset edge the unit is ready, and a request presented then is accepted at the very next edge (R164);
an operation that was in the unit is gone and nothing is owed for it (R161). The event log is the model's choice (log
entry 5), and R164 is an inference of the spec: "`req_ready = 1` from the reset edge on". -/
def Obligations.RequestAfterResetIsAccepted : Prop :=
  ∀ s : State, s.pins.rst = true → (s.pinsAt 1).rst = false → (s.pinsAt 1).reqValid = true →
    ∃ t, edges 2 s = .next t ∧ t.st = .busy ∧ t.request = pinsRequest (s.pinsAt 1) ∧
      t.response = ⟨0, 0⟩ ∧ t.log = .accepted (pinsRequest (s.pinsAt 1)) :: .resetEdge :: s.log

/-- Accept (R22): in `IDLE` with `rst = 0` and `req_valid = 1`, the payload is latched, the count is `LATENCY - 1`, the unit
is busy, no other element changes; and at every other edge the payload ports have no effect. What becomes of `script`, `edge`
and `log`, the accepted event included, is the model's choice (log entries 3 and 5). -/
def Obligations.AcceptSamplesThePayload : Prop :=
  (∀ s : State, s.pins.rst = false → s.st = .idle → s.pins.reqValid = true →
    step s = .next { s with
      op := s.pins.reqOp
      a := s.pins.reqA
      b := s.pins.reqB
      cnt := Config.latency s.pins.reqOp - 1
      st := .busy
      script := s.script.tail
      edge := s.edge + 1
      log := .accepted ⟨s.pins.reqOp, s.pins.reqA, s.pins.reqB⟩ :: s.log }) ∧
  (∀ (s : State) (p q : Pins), p.rst = q.rst → p.reqValid = q.reqValid → p.rspReady = q.rspReady →
    (s.st ≠ .idle ∨ p.reqValid = false ∨ p.rst = true) → clockEdge p s = clockEdge q s)

/-- In `BUSY` with `rst = 0` and edges left to wait, the count goes down by one and no other element changes (R23); no
input but `rst` is read in `BUSY`. That `script` and `edge` move on is the model's choice (log entry 3). -/
def Obligations.BusyCountsDown : Prop :=
  (∀ s : State, s.pins.rst = false → s.st = .busy → 0 < s.cnt →
    step s = .next { s with cnt := s.cnt - 1, script := s.script.tail, edge := s.edge + 1 }) ∧
  (∀ (s : State) (p q : Pins), s.st = .busy → p.rst = q.rst → clockEdge p s = clockEdge q s)

/-- Deliver (R24): in `DONE` with `rst = 0` and `rsp_ready = 1` the response on the ports goes to the host and the unit is
idle; for as long as `rsp_ready = 0` the response is held and nothing in the unit changes, however many edges pass. What
becomes of `script`, `edge` and `log`, the delivered event included, is the model's choice (log entries 3 and 5). -/
def Obligations.DeliverOrHoldTheResponse : Prop :=
  (∀ s : State, s.pins.rst = false → s.st = .done → s.pins.rspReady = true →
    step s = .next { s with
      st := .idle
      script := s.script.tail
      edge := s.edge + 1
      log := .delivered ⟨s.outputs.rspData, s.outputs.rspStatus⟩ :: s.log }) ∧
  (∀ (n : Nat) (s : State), s.st = .done →
    (∀ k < n, (s.pinsAt k).rst = false ∧ (s.pinsAt k).rspReady = false) →
    ∃ t, edges n s = .next t ∧ SameUnit s t ∧ t.log = s.log)

/-- In `IDLE` with neither `rst` nor `req_valid` nothing in the unit changes, whatever `rsp_ready` and the payload are
(R21, R46). That `script` and `edge` move on is the model's choice (log entry 3). -/
def Obligations.IdleUnitWaits : Prop :=
  ∀ s : State, s.pins.rst = false → s.st = .idle → s.pins.reqValid = false →
    step s = .next { s with script := s.script.tail, edge := s.edge + 1 }

/-- The outputs (R25) are functions of the seven elements alone, with the values R25 gives; outside `DONE` the response
ports show the latest response, or zero if there was none since reset (read off the event log, log entry 5). -/
def Obligations.OutputsFollowTheState : Prop :=
  (∀ s : State, (s.outputs.reqReady = true ↔ s.st = .idle) ∧ (s.outputs.rspValid = true ↔ s.st = .done) ∧
    s.outputs.rspData = s.res ∧ s.outputs.rspStatus = s.stat) ∧
  (∀ s t : State, SameUnit s t → s.outputs = t.outputs) ∧
  (∀ s : State, s.Inv → s.outputs.rspValid = false →
    (⟨s.outputs.rspData, s.outputs.rspStatus⟩ : Response) = lastShown s.log)

/-- The seven elements are the whole state (R20, R31): what they become at an edge depends on them and on that edge's
inputs alone, not on the transfers before or the inputs after. -/
def Obligations.NextElementsDependOnElementsAndInputs : Prop :=
  ∀ s t s' : State, SameUnit s t → s.pins = t.pins → step s = .next s' →
    ∃ t', step t = .next t' ∧ SameUnit s' t'

/-- No state stops the machine: every edge leads to a next state (R172; "There is no behaviour in this spec that a model
should treat as `stuck`"). -/
def Obligations.EveryEdgeHasANextState : Prop :=
  ∀ s : State, ∃ t, step s = .next t

/-! ## Invariants and runs -/

/-- The reset state has the invariant. -/
def Obligations.ResetStateHasInvariant : Prop := State.reset.Inv

/-- Every step keeps the invariant of Safety.lean, from every state that has it (R20, R25, R34, R48, R65, R66). Its clauses on
transfers speak of the event log, the model's choice (log entry 5). -/
def Obligations.StepKeepsInvariant : Prop :=
  ∀ s t : State, s.Inv → step s = .next t → t.Inv

/-- In every state of a run (R34): exactly one of ready, valid and busy holds, a response on the ports in `DONE` is the
response to the request not yet answered, and the transfers so far are one response per accepted request in order, but
for what a reset lost. The transfers are those of the event log, the model's choice (log entry 5). -/
def Obligations.RunsAnswerEveryRequestInOrder : Prop :=
  ∀ s : State, Reachable s →
    ((s.outputs.reqReady = true ∧ s.outputs.rspValid = false ∧ s.st ≠ .busy) ∨
      (s.outputs.reqReady = false ∧ s.outputs.rspValid = true ∧ s.st ≠ .busy) ∨
      (s.outputs.reqReady = false ∧ s.outputs.rspValid = false ∧ s.st = .busy)) ∧
    (s.outputs.rspValid = true → ∃ r, outstanding s.log = some (some r) ∧
      responseTo r = some ⟨s.outputs.rspData, s.outputs.rspStatus⟩) ∧
    (outstanding s.log).isSome = true

/-- An operation accepted at one edge completes at the `LATENCY(op)`-th edge after it (R23, R170), unless reset
intervenes: until then the unit is neither ready nor valid, at that edge the response to the request stands on the
ports, and the accepted request is the one event. The event log is the model's choice (log entry 5), and so is the script
behind the inputs (log entry 3). -/
def Obligations.CompletesAfterItsLatency : Prop :=
  ∀ s : State, s.st = .idle → s.pins.reqValid = true →
    (∀ k ≤ Config.latency s.pins.reqOp, (s.pinsAt k).rst = false) →
    (∀ k < Config.latency s.pins.reqOp, ∃ u, edges (k + 1) s = .next u ∧ u.st = .busy) ∧
    (∃ t, edges (Config.latency s.pins.reqOp + 1) s = .next t ∧ t.st = .done ∧
      t.request = pinsRequest s.pins ∧ responseTo t.request = some t.response ∧
      t.log = .accepted (pinsRequest s.pins) :: s.log)

/-- A host that performs requests one after another (R77, R171: one edge to present each, `LATENCY(op)` edges, one edge to
take the response) has each of them accepted and answered with its response, in order, and finds the unit idle with the
last response still on the ports (R34, R172). The script and the event log are the model's choice (log entries 3 and 5). -/
def Obligations.RequestsAreServedInOrder : Prop :=
  ∀ (rs : List Request) (s : State) (rest : List Pins), s.st = .idle →
    s.script = rs.flatMap hostEdges ++ rest →
    ∃ t, edges (rs.map fun r => Config.latency r.op + 2).sum s = .next t ∧ t.st = .idle ∧ t.script = rest ∧
      t.log = (rs.reverse.flatMap hostEvents) ++ s.log ∧
      (∀ r, rs.getLast? = some r → responseTo r = some t.response)

/-- Purity and frame of every operation (R31, R141): it has one result pair, the same in every state, and its completion
writes that pair and the phase and changes nothing else. -/
def Obligations.ResultDependsOnTheRequestAlone : Prop :=
  ∀ i : Instr, ∃ r : Result, ∀ s : State,
    exec i s = .next { s with res := r.data, stat := r.status.code, st := .done }

/-! ## Operands and results -/

/-- The ignored bits of R62 have no effect: FROM_INT, TO_INT and TO_DOUBLE read `a[31:0]`, FROM_DOUBLE reads `a`, MUL and
DIV read `a[31:0]` and `b`, the reserved codes read nothing. -/
def Obligations.IgnoredOperandBitsHaveNoEffect : Prop :=
  ∀ (a a' : Dword) (b b' : Word) (s : State),
    (a.extractLsb' 0 32 = a'.extractLsb' 0 32 →
      exec (.fromInt a b) s = exec (.fromInt a' b') s ∧
      exec (.toInt a b) s = exec (.toInt a' b') s ∧
      exec (.toDouble a b) s = exec (.toDouble a' b') s ∧
      exec (.mul a b) s = exec (.mul a' b) s ∧
      exec (.div a b) s = exec (.div a' b) s) ∧
    exec (.fromDouble a b) s = exec (.fromDouble a b') s ∧
    exec (.op6 a b) s = exec (.op6 a' b') s ∧
    exec (.op7 a b) s = exec (.op7 a' b') s

/-- Placement (R65): a 32-bit result stands in `data[31:0]` under 32 zero bits, and an error response has data zero. -/
def Obligations.ResultPlacement : Prop :=
  ∀ (a : Dword) (b : Word) (s : State),
    (∀ i ∈ [Instr.fromInt a b, .toInt a b, .fromDouble a b, .mul a b, .div a b],
      ∃ t, exec i s = .next t ∧ t.res.extractLsb' 32 32 = 0) ∧
    (∀ i : Instr, ∃ t, exec i s = .next t ∧ (isErrorCode t.stat = true → t.res = 0))

/-- Which status each operation can produce, as R67's table lists them. -/
def Obligations.StatusesOfEachOperation : Prop :=
  ∀ (a : Dword) (b : Word) (s : State),
    (∃ t, exec (.fromInt a b) s = .next t ∧ t.stat ∈ [0b000#3, 0b001#3]) ∧
    (∃ t, exec (.toInt a b) s = .next t ∧ t.stat = 0b000#3) ∧
    (∃ t, exec (.fromDouble a b) s = .next t ∧ t.stat ∈ [0b000#3, 0b001#3, 0b010#3]) ∧
    (∃ t, exec (.toDouble a b) s = .next t ∧ t.stat = 0b000#3) ∧
    (∃ t, exec (.mul a b) s = .next t ∧ t.stat ∈ [0b000#3, 0b001#3]) ∧
    (∃ t, exec (.div a b) s = .next t ∧ t.stat ∈ [0b000#3, 0b001#3, 0b100#3]) ∧
    (∃ t, exec (.op6 a b) s = .next t ∧ t.stat = 0b101#3) ∧
    (∃ t, exec (.op7 a b) s = .next t ∧ t.stat = 0b101#3)

/-- The two errors and what raises them (R140): a response has the error bit exactly for a DIV with a zero divisor and for
a reserved code, with the code of the one and of the other. -/
def Obligations.ErrorsAreTheTwoDocumentedOnes : Prop :=
  ∀ (i : Instr) (s : State), ∃ t, exec i s = .next t ∧
    (isErrorCode t.stat = true ↔ (i.opCode = 5 ∧ i.fieldB = 0) ∨ i.opCode = 6 ∨ i.opCode = 7) ∧
    (i.opCode = 5 → i.fieldB = 0 → t.stat = 0b100) ∧
    (i.opCode = 6 ∨ i.opCode = 7 → t.stat = 0b101)

/-! ## The conversions -/

/-- FROM_INT (R90) on the INT32 `i` in `a[31:0]`: exact as `{a[15:0], 0x0000}` for -32768 to 32767, the nearest bound and
`SATURATED` outside. -/
def Obligations.FromIntExactOrClamped : Prop :=
  ∀ (a : Dword) (b : Word) (s : State), decodeFields 0 a b = .fromInt a b ∧
    (-32768 ≤ (a.extractLsb' 0 32).toInt ∧ (a.extractLsb' 0 32).toInt ≤ 32767 →
      exec (.fromInt a b) s = .next { s with
        res := 0#32 ++ (a.extractLsb' 0 16 ++ 0#16)
        stat := 0b000
        st := .done }) ∧
    (32768 ≤ (a.extractLsb' 0 32).toInt →
      exec (.fromInt a b) s = .next { s with res := 0x000000007FFFFFFF, stat := 0b001, st := .done }) ∧
    ((a.extractLsb' 0 32).toInt ≤ -32769 →
      exec (.fromInt a b) s = .next { s with res := 0x0000000080000000, stat := 0b001, st := .done })

/-- TO_INT (R91): the result is `sext_32(a[31:16])`, which is the floor of the real value, always with `OK`. -/
def Obligations.ToIntIsFloor : Prop :=
  ∀ (a : Dword) (b : Word) (s : State), decodeFields 1 a b = .toInt a b ∧
    exec (.toInt a b) s = .next { s with
      res := ((a.extractLsb' 16 16).signExtend 32).setWidth 64
      stat := 0b000
      st := .done } ∧
    ((a.extractLsb' 16 16).signExtend 32).toInt = ⌊fix16Value (a.extractLsb' 0 32)⌋

/-- FROM_DOUBLE (R92): a finite operand's exact value, scaled by 65536, is rounded half away from zero and clamped; an
infinity saturates by its sign; a NaN of any pattern gives the open value `NAN_RESULT` with `NAN_OPERAND`. -/
def Obligations.FromDoubleRoundsTheExactValue : Prop :=
  ∀ (a : Dword) (b : Word) (s : State), decodeFields 2 a b = .fromDouble a b ∧
    (∀ x : ℚ, dblValue a = some x →
      exec (.fromDouble a b) s = .next { s with
        res := (sat32 (rhafz (x * 65536))).1.setWidth 64
        stat := (sat32 (rhafz (x * 65536))).2.code
        st := .done }) ∧
    (a = 0x7FF0000000000000 →
      exec (.fromDouble a b) s = .next { s with res := 0x000000007FFFFFFF, stat := 0b001, st := .done }) ∧
    (a = 0xFFF0000000000000 →
      exec (.fromDouble a b) s = .next { s with res := 0x0000000080000000, stat := 0b001, st := .done }) ∧
    (a.extractLsb' 52 11 = 2047 → a.extractLsb' 0 52 ≠ 0 →
      exec (.fromDouble a b) s = .next { s with
        res := Config.nanResult.setWidth 64
        stat := 0b010
        st := .done })

/-- TO_DOUBLE (R95): the result is the one binary64 that is not minus zero and has exactly the real value of the operand,
and the status is always `OK`. -/
def Obligations.ToDoubleIsExact : Prop :=
  ∀ (a : Dword) (b : Word) (s : State), decodeFields 3 a b = .toDouble a b ∧
    ∃ d : Dword, exec (.toDouble a b) s = .next { s with res := d, stat := 0b000, st := .done } ∧
      dblValue d = some (fix16Value (a.extractLsb' 0 32)) ∧ d ≠ 0x8000000000000000 ∧
      (∀ e : Dword, dblValue e = some (fix16Value (a.extractLsb' 0 32)) → e ≠ 0x8000000000000000 → e = d)

/-- The binary64 of a value is one pattern, but for the two zeros (R95: "the one binary64 `d` that is not a negative
zero"): two patterns of one value are equal or both zeros. -/
def Obligations.ValueDeterminesTheDouble : Prop :=
  ∀ (d e : Dword) (x : ℚ), dblValue d = some x → dblValue e = some x →
    d ≠ 0x8000000000000000 → e ≠ 0x8000000000000000 → d = e

/-- Back through the integer conversions: for every integer from -32768 to 32767, FROM_INT is exact, TO_INT of its result
is the integer again and TO_DOUBLE of it has the integer's value. -/
def Obligations.IntegersRoundTrip : Prop :=
  ∀ i : Word, -32768 ≤ i.toInt → i.toInt ≤ 32767 →
    (fromIntResult i).status = .ok ∧
    toIntResult (lowWord (fromIntResult i).data) = ⟨i.setWidth 64, .ok⟩ ∧
    dblValue (toDoubleResult (lowWord (fromIntResult i).data)).data = some (i.toInt : ℚ)

/-- FROM_DOUBLE undoes TO_DOUBLE on every Fix16, with `OK` ("The two double conversions are inverse on Fix16"); the low 21
bits of the double between them are zero. -/
def Obligations.DoubleRoundTripIsIdentity : Prop :=
  ∀ (x : Word) (b : Word) (s : State),
    exec (.fromDouble (toDoubleResult x).data b) s = .next { s with
      res := x.setWidth 64
      stat := 0b000
      st := .done } ∧
    (toDoubleResult x).data.extractLsb' 0 21 = 0

/-! ## Rounding and saturation -/

/-- `rhafz` (R80) is a nearest integer, and of two nearest ones the larger in magnitude; it is the floor of `x + 1/2` from
zero on, and the same on the negated argument, negated, below. -/
def Obligations.RoundingIsNearestTiesAway : Prop :=
  ∀ x : ℚ, |(rhafz x : ℚ) - x| ≤ 1 / 2 ∧ (|(rhafz x : ℚ) - x| = 1 / 2 → |x| < |(rhafz x : ℚ)|) ∧
    (∀ k : ℤ, |(rhafz x : ℚ) - x| ≤ |(k : ℚ) - x|) ∧
    (0 ≤ x → rhafz x = ⌊x + 1 / 2⌋) ∧ (x < 0 → rhafz x = -⌊-x + 1 / 2⌋)

/-- The integer algorithm of R81 is round half away from zero of the exact quotient. -/
def Obligations.IntegerRoundingIsHalfAway : Prop :=
  ∀ n d : ℤ, d ≠ 0 → rhafzDiv n d = rhafz ((n : ℚ) / (d : ℚ))

/-- The further properties of `rhafz` (R84): monotone; additive over an integer of the same sign; the identity on integers;
never smaller in magnitude than truncation and never more than half a unit larger than its argument. -/
def Obligations.RoundingProperties : Prop :=
  (∀ x y : ℚ, x ≤ y → rhafz x ≤ rhafz y) ∧
  (∀ (k : ℤ) (x : ℚ), 0 ≤ (k : ℚ) * x → rhafz ((k : ℚ) + x) = k + rhafz x) ∧
  (∀ k : ℤ, rhafz (k : ℚ) = k) ∧
  (∀ x : ℚ, |if 0 ≤ x then ⌊x⌋ else -⌊-x⌋| ≤ |rhafz x| ∧ ((|rhafz x| : ℤ) : ℚ) ≤ |x| + 1 / 2)

/-- Rounding is symmetric in the signs of dividend and divisor ("This is what makes the source's sign-symmetry laws
hold"). -/
def Obligations.RoundingIsSymmetricInSign : Prop :=
  ∀ n d : ℤ, d ≠ 0 →
    rhafzDiv (-n) d = -rhafzDiv n d ∧ rhafzDiv n (-d) = -rhafzDiv n d ∧ rhafzDiv (-n) (-d) = rhafzDiv n d

/-- Division on magnitudes, with the sign put back, is the same function ("which is the same function as
`rhafz_div(n, d)`"). -/
def Obligations.MagnitudeDivisionAgrees : Prop :=
  ∀ n d : ℤ, d ≠ 0 →
    rhafzDiv n d =
      let qa : Nat := n.natAbs / d.natAbs
      let ra : Nat := n.natAbs % d.natAbs
      let v : Nat := if d.natAbs ≤ 2 * ra then qa + 1 else qa
      if xor (decide (n < 0)) (decide (d < 0)) then -(v : ℤ) else (v : ℤ)

/-- The rescale on the bits of a 64-bit product is the rounded division by 65536 ("they agree for every p"). -/
def Obligations.BitRescaleAgrees : Prop :=
  ∀ p : Dword, rescaleBits p = rhafzDiv p.toInt 65536

/-- `sat32` (R85): a value above the range gives `FIX16_MAX`, one below gives `FIX16_MIN`, both `SATURATED`; a value in the
range is returned itself with `OK`. The value is the one in range that is nearest, never a wrapped one. -/
def Obligations.SaturationClampsToTheNearestBound : Prop :=
  ∀ v : ℤ,
    (2147483647 < v → sat32 v = (0x7FFFFFFF, .saturated)) ∧
    (v < -2147483648 → sat32 v = (0x80000000, .saturated)) ∧
    (-2147483648 ≤ v → v ≤ 2147483647 → (sat32 v).1.toInt = v ∧ (sat32 v).2 = .ok) ∧
    (sat32 v).1.toInt = max (-2147483648) (min 2147483647 v)

/-- The order of rounding and clamping matters to the status only: clamping the exact value first gives the same returned
value (R88). -/
def Obligations.ClampingFirstGivesTheSameValue : Prop :=
  ∀ x : ℚ, (sat32 (rhafz x)).1 = (sat32 (rhafz (max (-2147483648) (min 2147483647 x)))).1

/-- Saturation, not wrapping (R129): each operation that returns a Fix16 returns the clamped value of its unclamped rounded
integer, and a larger integer never gives a smaller returned value. -/
def Obligations.ResultsClampTheRoundedInteger : Prop :=
  (∀ i : Word, (lowWord (fromIntResult i).data).toInt = max (-2147483648) (min 2147483647 (i.toInt * 65536))) ∧
  (∀ (d : Dword) (x : ℚ), dblValue d = some x →
    (lowWord (fromDoubleResult d).data).toInt = max (-2147483648) (min 2147483647 (rhafz (x * 65536)))) ∧
  (∀ a b : Word, (lowWord (mulResult a b).data).toInt = max (-2147483648) (min 2147483647 (mulRounded a b))) ∧
  (∀ a b : Word, b ≠ 0 →
    (lowWord (divResult a b).data).toInt = max (-2147483648) (min 2147483647 (divRounded a b))) ∧
  (∀ v w : ℤ, v ≤ w → (sat32 v).1.toInt ≤ (sat32 w).1.toInt)

/-! ## The multiplier -/

/-- MUL (R100): the exact real product of the two operands, rounded once to a raw value half away from zero, then
clamped. -/
def Obligations.MulRoundsTheExactProduct : Prop :=
  ∀ (a : Dword) (b : Word) (s : State), decodeFields 4 a b = .mul a b ∧
    let v : ℤ := rhafz (((a.extractLsb' 0 32).toInt : ℚ) * (b.toInt : ℚ) / 65536)
    exec (.mul a b) s = .next { s with
      res := (sat32 v).1.setWidth 64
      stat := (sat32 v).2.code
      st := .done }

/-- The 64-bit data path of the multiplier (R101): the 64-bit product of the sign-extended operands does not wrap, stays
between -4611686016279904256 and 2^62, reaches 2^62 only for the square of `FIX16_MIN`, and adding 32768 to it does
not wrap either, and rescaling its bits (R83, an inference of the spec: "they agree for every p") gives the rounded integer
of MUL, which lies between -2^46 + 2^15 and 2^46. -/
def Obligations.MultiplierDataPathIsExact : Prop :=
  ∀ a b : Word,
    (a.signExtend 64 * b.signExtend 64).toInt = a.toInt * b.toInt ∧
    -4611686016279904256 ≤ a.toInt * b.toInt ∧ a.toInt * b.toInt ≤ 2 ^ 62 ∧
    (a.toInt * b.toInt = 2 ^ 62 ↔ a = 0x80000000 ∧ b = 0x80000000) ∧
    (a.signExtend 64 * b.signExtend 64 + 32768).toInt = a.toInt * b.toInt + 32768 ∧
    rescaleBits (a.signExtend 64 * b.signExtend 64) = mulRounded a b ∧
    -2 ^ 46 + 2 ^ 15 ≤ mulRounded a b ∧ mulRounded a b ≤ 2 ^ 46

/-- MUL is commutative, data and status ("`MUL(a, b) = MUL(b, a)`, data and status, for all a and b"). -/
def Obligations.MulCommutes : Prop :=
  ∀ (a b : Dword) (s : State), exec (.mul a (b.extractLsb' 0 32)) s = exec (.mul b (a.extractLsb' 0 32)) s

/-- Sign symmetry of MUL: on the rounded integers with no condition but that the negation exists, on the results under the
three exclusions of the law; a result that saturates high goes to the low bound. -/
def Obligations.MulSignSymmetry : Prop :=
  ∀ a b : Word, a ≠ 0x80000000 →
    mulRounded (-a) b = -mulRounded a b ∧ mulRounded b (-a) = -mulRounded b a ∧
    (b ≠ 0x80000000 → mulRounded (-a) (-b) = mulRounded a b ∧ mulResult (-a) (-b) = mulResult a b) ∧
    ((mulResult a b).status = .ok → (lowWord (mulResult a b).data).toInt ≠ -2147483648 →
      (mulResult (-a) b).status = .ok ∧
      (lowWord (mulResult (-a) b).data).toInt = -(lowWord (mulResult a b).data).toInt) ∧
    ((mulResult b a).status = .ok → (lowWord (mulResult b a).data).toInt ≠ -2147483648 →
      (mulResult b (-a)).status = .ok ∧
      (lowWord (mulResult b (-a)).data).toInt = -(lowWord (mulResult b a).data).toInt) ∧
    (2147483647 < mulRounded a b → lowWord (mulResult (-a) b).data = 0x80000000 ∧
      (mulResult (-a) b).status = if mulRounded a b = 2147483648 then .ok else .saturated)

/-! ## The divider -/

/-- DIV (R110): with a divisor that is not zero, the exact real quotient of the two operands, rounded once to a raw value
half away from zero, then clamped; with a zero divisor, `DIV_BY_ZERO` and data zero. -/
def Obligations.DivRoundsTheExactQuotient : Prop :=
  ∀ (a : Dword) (b : Word) (s : State), decodeFields 5 a b = .div a b ∧
    (b ≠ 0 →
      let v : ℤ := rhafz (((a.extractLsb' 0 32).toInt : ℚ) * 65536 / (b.toInt : ℚ))
      exec (.div a b) s = .next { s with
        res := (sat32 v).1.setWidth 64
        stat := (sat32 v).2.code
        st := .done }) ∧
    (b = 0 → exec (.div a b) s = .next { s with res := 0, stat := 0b100, st := .done })

/-- A zero divisor (R113): for every dividend the response is `DIV_BY_ZERO` with data zero, and the unit carries on: once
that response is taken it is ready for the next request (R42). The delivered event of `log` is the model's choice (log
entry 5). -/
def Obligations.ZeroDivisorIsAnErrorResponse : Prop :=
  ∀ (a : Dword) (s : State),
    ∃ t, exec (.div a 0) s = .next t ∧ t = { s with res := 0, stat := 0b100, st := .done } ∧
      isErrorCode t.stat = true ∧
      (s.pins.rst = false → s.pins.rspReady = true →
        ∃ u, step t = .next u ∧ u.outputs.reqReady = true ∧ u.log = .delivered ⟨0, 0b100⟩ :: s.log)

/-- The widths of DIV's intermediates (R111): the pre-scaled dividend, shifted in 64 bits without loss, the truncating quotient and remainder, and the
rounded integer, for every divisor that is not zero. -/
def Obligations.DividerWidthsSuffice : Prop :=
  ∀ a b : Word, b ≠ 0 →
    (a.signExtend 64 <<< 16).toInt = a.toInt * 65536 ∧
    -2 ^ 47 ≤ a.toInt * 65536 ∧ a.toInt * 65536 ≤ 2 ^ 47 - 65536 ∧
    ((a.toInt * 65536).tdiv b.toInt).natAbs ≤ 2 ^ 47 ∧
    ((a.toInt * 65536).tmod b.toInt).natAbs < b.toInt.natAbs ∧ b.toInt.natAbs ≤ 2 ^ 31 ∧
    (b.toInt.natAbs = 2 ^ 31 ↔ b = 0x80000000) ∧
    2 * ((a.toInt * 65536).tmod b.toInt).natAbs < 2 ^ 32 ∧
    (divRounded a b).natAbs ≤ 2 ^ 47

/-- When DIV saturates: with a divisor of real magnitude at least 1.0 only for `FIX16_MIN / -1.0`, and always to the bound
on the side of the exact quotient's sign. -/
def Obligations.DivSaturatesBySign : Prop :=
  ∀ a b : Word, b ≠ 0 →
    (65536 ≤ b.toInt.natAbs → ((divResult a b).status = .saturated ↔ a = 0x80000000 ∧ b = 0xFFFF0000)) ∧
    ((divResult a b).status = .saturated →
      lowWord (divResult a b).data = if xor (decide (a.toInt < 0)) (decide (b.toInt < 0)) then 0x80000000 else 0x7FFFFFFF)

/-- Sign symmetry of DIV, with the exclusions of the law; a zero divisor gives `DIV_BY_ZERO` on both sides. -/
def Obligations.DivSignSymmetry : Prop :=
  ∀ a b : Word,
    (b ≠ 0 → a ≠ 0x80000000 → divRounded (-a) b = -divRounded a b) ∧
    (b ≠ 0 → b ≠ 0x80000000 → divRounded a (-b) = -divRounded a b) ∧
    (a ≠ 0x80000000 → b ≠ 0x80000000 → divResult (-a) (-b) = divResult a b) ∧
    ((divResult a b).status = .ok → (lowWord (divResult a b).data).toInt ≠ -2147483648 →
      (a ≠ 0x80000000 → (lowWord (divResult (-a) b).data).toInt = -(lowWord (divResult a b).data).toInt) ∧
      (b ≠ 0x80000000 → (lowWord (divResult a (-b)).data).toInt = -(lowWord (divResult a b).data).toInt)) ∧
    (divResult (-a) 0).status = .divByZero

/-! ## Laws of the operations -/

/-- Identity: multiplying or dividing by `from_int(1)` returns every operand itself with `OK`, the bounds included. -/
def Obligations.OneIsTheIdentity : Prop :=
  fromIntResult 1 = ⟨0x00010000, .ok⟩ ∧
  ∀ (a : Dword) (s : State),
    exec (.mul a 0x00010000) s = .next { s with res := (a.extractLsb' 0 32).setWidth 64, stat := 0b000, st := .done } ∧
    exec (.div a 0x00010000) s = .next { s with res := (a.extractLsb' 0 32).setWidth 64, stat := 0b000, st := .done } ∧
    exec (.mul 0x00010000 (a.extractLsb' 0 32)) s =
      .next { s with res := (a.extractLsb' 0 32).setWidth 64, stat := 0b000, st := .done }

/-- Zero (R123): a product with a zero operand and a quotient of zero by any other divisor are zero with `OK`; a division by
zero has status `DIV_BY_ZERO` for every dividend; a zero result does not imply a zero operand. -/
def Obligations.ZeroLaws : Prop :=
  (∀ (a : Dword) (b : Word) (s : State),
    exec (.mul a 0) s = .next { s with res := 0, stat := 0b000, st := .done } ∧
    (a.extractLsb' 0 32 = 0 → exec (.mul a b) s = .next { s with res := 0, stat := 0b000, st := .done }) ∧
    (a.extractLsb' 0 32 = 0 → b ≠ 0 → exec (.div a b) s = .next { s with res := 0, stat := 0b000, st := .done }) ∧
    (∃ t, exec (.div a 0) s = .next t ∧ t.stat = 0b100)) ∧
  (∀ s : State, exec (.mul 1 0x7FFF) s = .next { s with res := 0, stat := 0b000, st := .done })

/-- Accuracy: whenever the status is `OK`, the result of MUL, DIV and FROM_DOUBLE is within half a raw unit of the exact
one. -/
def Obligations.ResultsAreWithinHalfAUnit : Prop :=
  (∀ a b : Word, (mulResult a b).status = .ok →
    |((lowWord (mulResult a b).data).toInt : ℚ) - a.toInt * b.toInt / 65536| ≤ 1 / 2) ∧
  (∀ a b : Word, (divResult a b).status = .ok →
    |((lowWord (divResult a b).data).toInt : ℚ) - a.toInt * 65536 / b.toInt| ≤ 1 / 2) ∧
  (∀ (d : Dword) (x : ℚ), dblValue d = some x → (fromDoubleResult d).status = .ok →
    |((lowWord (fromDoubleResult d).data).toInt : ℚ) - x * 65536| ≤ 1 / 2)

/-- The validation contract (R127): MUL and DIV are FROM_DOUBLE's rounding and clamping of the exact product and quotient
of what TO_DOUBLE gives for the two operands, in data and status. -/
def Obligations.OperatorsAgreeWithTheRealReference : Prop :=
  ∀ (a b : Word) (x y : ℚ), dblValue (toDoubleResult a).data = some x → dblValue (toDoubleResult b).data = some y →
    mulResult a b = realToFix16 (x * y) ∧ (b ≠ 0 → divResult a b = realToFix16 (x / y))

/-- What is not a law (R130): MUL is not associative, DIV does not undo MUL, and a saturated result loses its magnitude. -/
def Obligations.CounterexamplesToFalseLaws : Prop :=
  lowWord (mulResult (lowWord (mulResult 1 0x8000).data) 0x8000).data = 1 ∧
  lowWord (mulResult 1 (lowWord (mulResult 0x8000 0x8000).data)).data = 0 ∧
  divResult (lowWord (mulResult 1 0x7FFF).data) 0x7FFF = ⟨0, .ok⟩ ∧
  mulResult 0x7FFFFFFF 0x00020000 = ⟨0x000000007FFFFFFF, .saturated⟩ ∧
  mulResult 0x80000000 0xFFFF0000 = ⟨0x000000007FFFFFFF, .saturated⟩

/-! ## The reserved codes -/

/-- The reserved codes (R73): accepted like any other request, with their own latency, and completed with `ILLEGAL_OP` and
data zero, whatever the operand fields hold, with no other effect. -/
def Obligations.ReservedCodesAnswerIllegalOp : Prop :=
  (∀ (a : Dword) (b : Word) (s : State),
    exec (.op6 a b) s = .next { s with res := 0, stat := 0b101, st := .done } ∧
    exec (.op7 a b) s = .next { s with res := 0, stat := 0b101, st := .done }) ∧
  (∀ s : State, s.pins.rst = false → s.st = .idle → s.pins.reqValid = true → 6 ≤ s.pins.reqOp.toNat →
    ∃ t, step s = .next t ∧ t.st = .busy ∧ t.request = pinsRequest s.pins ∧
      t.cnt = Config.latency s.pins.reqOp - 1 ∧ t.response = s.response)
end

