-- ==== Sys2Proof/Laws/Runs.lean ====
section
/-! SUPPORT. Runs of several edges, one edge at a time. -/

namespace Sys2Proof.Machine

@[simp] theorem edges_zero (s : State) : edges 0 s = .next s := rfl

/-- One more edge at the front of a run. -/
theorem edges_succ (n : Nat) {s t : State} (h : step s = .next t) : edges (n + 1) s = edges n t := by
  simp only [edges, h]

/-- A run of edges is the host's run of the machine. -/
theorem edges_eq_run (n : Nat) (s : State) : edges n s = Sys2Proof.core.run n s := by
  induction n generalizing s with
  | zero => rfl
  | succ n ih =>
    have hs : Sys2Proof.core.step s = step s := rfl
    simp only [edges, Host.Core.run, hs]
    cases step s with
    | next t => exact ih t
    | fault r => rfl
    | refused r => rfl

/-- A run in two parts. -/
theorem edges_add {n : Nat} (m : Nat) {s t : State} (h : edges n s = .next t) : edges (n + m) s = edges m t := by
  induction n generalizing s with
  | zero =>
    cases h
    rw [Nat.zero_add]
  | succ n ih =>
    rw [Nat.add_right_comm]
    simp only [edges] at h ⊢
    cases hs : step s with
    | next u =>
      rw [hs] at h
      exact ih h
    | fault r => nomatch r
    | refused r =>
      rw [hs] at h
      nomatch h

end Sys2Proof.Machine
end

