-- ==== Sys2Proof/Machine/Text.lean ====
section
/-! DEFINITION. The spec's texts: request and response words in hexadecimal (R60, R64), the assembler line (R75), the source's
names as aliases (R76) and the named script line (R77). The machine uses nothing of this file. -/

namespace Sys2Proof.Machine

/-- A hexadecimal digit's character, in upper case as the spec writes it. -/
def hexChar (n : Nat) : Char :=
  if n < 10 then Char.ofNat (48 + n) else Char.ofNat (55 + n)

/-- The `n` lowest hexadecimal digits of a number, the most significant first. -/
def hexDigits : Nat → Nat → List Char
  | 0, _ => []
  | n + 1, v => hexDigits n (v / 16) ++ [hexChar (v % 16)]

/-- A request word in text, 25 hexadecimal digits (R60). -/
def requestText (r : Request) : List Char := '0' :: 'x' :: hexDigits 25 r.word.toNat

/-- A response word in text, 17 hexadecimal digits (R64). -/
def responseText (q : Response) : List Char := '0' :: 'x' :: hexDigits 17 q.word.toNat

/-- The value of a decimal digit. -/
def decValue (c : Char) : Option Nat :=
  if '0' ≤ c ∧ c ≤ '9' then some (c.toNat - 48) else none

/-- The value of a hexadecimal digit. -/
def hexValue (c : Char) : Option Nat :=
  if 'A' ≤ c ∧ c ≤ 'F' then some (c.toNat - 55)
  else if 'a' ≤ c ∧ c ≤ 'f' then some (c.toNat - 87)
  else decValue c

/-- The number written by digits of a base, continuing from `acc`. -/
def readDigits (base : Nat) (digit : Char → Option Nat) : Nat → List Char → Option Nat
  | acc, [] => some acc
  | acc, c :: cs => (digit c).bind fun d => readDigits base digit (acc * base + d) cs

/-- A number written in decimal, at least one digit. -/
def readDecimal (cs : List Char) : Option Nat :=
  if cs = [] then none else readDigits 10 decValue 0 cs

/-- `0x` and exactly `n` hexadecimal digits (R75). -/
def readHex (n : Nat) : List Char → Option Nat
  | '0' :: 'x' :: cs => if cs.length = n then readDigits 16 hexValue 0 cs else none
  | _ => none

/-- A 32-bit integer in the range of INT32 (R69) as the literal's vector. -/
def int32Literal (k : Int) : Option Dword :=
  if -2147483648 ≤ k ∧ k ≤ 2147483647 then some ((BitVec.ofInt 32 k).setWidth 64) else none

/-- A decimal INT32 literal with an optional sign (R75). -/
def readSigned : List Char → Option Dword
  | '-' :: cs => (readDecimal cs).bind fun n => int32Literal (-(n : Int))
  | '+' :: cs => (readDecimal cs).bind fun n => int32Literal n
  | cs => (readDecimal cs).bind fun n => int32Literal n

/-- `vJ`, the name of line J (R77). -/
def readLineName : List Char → Option Nat
  | 'v' :: cs => readDecimal cs
  | _ => none

/-- The first answer that exists. -/
def firstOf (x y : Option SrcOperand) : Option SrcOperand :=
  match x with
  | some v => some v
  | none => y

/-- An operand: the name of a line (R77) or the literal `lit` reads. -/
def readOperand (lit : List Char → Option Dword) (cs : List Char) : Option SrcOperand :=
  firstOf ((readLineName cs).map .line) ((lit cs).map .lit)

/-- A Fix16 literal: `0x` and 8 digits (R75), or one of the two named constants (R76). DESIGN CHOICE (log entry 23): the
constants are read as Fix16 operands only. -/
def readFix16 (cs : List Char) : Option Dword :=
  if cs = "FIX16_MAX".toList then some (fix16Max.setWidth 64)
  else if cs = "FIX16_MIN".toList then some (fix16Min.setWidth 64)
  else (readHex 8 cs).map (BitVec.ofNat 64)

/-- An INT32 literal: decimal, or `0x` and 8 digits (R75). DESIGN CHOICE (log entry 23): the names `FIX16_MAX` and
`FIX16_MIN` are not read here, so `FROM_INT FIX16_MAX` is no line; R76 does not say for which operand kinds they stand. -/
def readInt32 (cs : List Char) : Option Dword :=
  match readHex 8 cs with
  | some n => some (BitVec.ofNat 64 n)
  | none => readSigned cs

/-- A binary64 literal: the bit pattern, `0x` and 16 digits (R75). -/
def readDouble (cs : List Char) : Option Dword := (readHex 16 cs).map (BitVec.ofNat 64)

/-- A line's text up to the `;` that opens a comment (R75). -/
def dropComment : List Char → List Char
  | [] => []
  | c :: cs => if c = ';' then [] else c :: dropComment cs

/-- The marks that are tokens of their own. -/
def isMark (c : Char) : Bool := c == ',' || c == '(' || c == ')' || c == '='

/-- A word read so far, as a token if there is one. -/
def closeWord (w : List Char) : List (List Char) := if w = [] then [] else [w]

/-- The tokens of a line: words, and the marks `,` `(` `)` `=`; `w` is the word being read. -/
def tokens : List Char → List Char → List (List Char)
  | w, [] => closeWord w
  | w, c :: cs =>
    if c = ' ' then closeWord w ++ tokens [] cs
    else if isMark c then closeWord w ++ [c] :: tokens [] cs
    else tokens (w ++ [c]) cs

/-- The operand tokens of a line whose mnemonic is known, in the order of R75. -/
def readOperands (m : List Char) (xs : List (List Char)) : Option Line :=
  match xs with
  | [] =>
    if m = ".op6".toList then some .op6
    else if m = ".op7".toList then some .op7
    else none
  | [x] =>
    if m = "FROM_INT".toList then (readOperand readInt32 x).map .fromInt
    else if m = "TO_INT".toList then (readOperand readFix16 x).map .toInt
    else if m = "FROM_DOUBLE".toList then (readOperand readDouble x).map .fromDouble
    else if m = "TO_DOUBLE".toList then (readOperand readFix16 x).map .toDouble
    else none
  | [x, [','], y] =>
    (readOperand readFix16 x).bind fun u => (readOperand readFix16 y).bind fun v =>
      if m = "MUL".toList then some (.mul u v)
      else if m = "DIV".toList then some (.div u v)
      else none
  | _ => none

/-- The mnemonic a source function name stands for (R76). -/
def aliasMnemonic (f : List Char) : Option (List Char) :=
  if f = "from_int".toList then some "FROM_INT".toList
  else if f = "to_int".toList then some "TO_INT".toList
  else if f = "from_double".toList then some "FROM_DOUBLE".toList
  else if f = "to_double".toList then some "TO_DOUBLE".toList
  else if f = "mul".toList then some "MUL".toList
  else if f = "div".toList then some "DIV".toList
  else none

/-- The tokens of an alias call with its brackets taken off (R76): `f ( x , y )`. -/
def readAlias (f : List Char) (xs : List (List Char)) : Option Line :=
  (aliasMnemonic f).bind fun m =>
    if xs.getLast? = some [')'] then readOperands m xs.dropLast else none

/-- One assembler line (R75) or alias call (R76). -/
def readLine (ts : List (List Char)) : Option Line :=
  match ts with
  | [] => none
  | f :: ['('] :: xs => readAlias f xs
  | m :: xs => readOperands m xs

/-- One assembler line or alias call, as text. -/
def readAsm (text : String) : Option Line := readLine (tokens [] (dropComment text.toList))

/-- One script line `vK = ...` as text, with its K (R77). -/
def readScriptLine (text : String) : Option (Nat × Line) :=
  match tokens [] (dropComment text.toList) with
  | v :: ['='] :: ts => (readLineName v).bind fun k => (readLine ts).map fun l => (k, l)
  | _ => none

end Sys2Proof.Machine
end

