-- ==== Sys2Proof/Tests/Slice0.lean ====
section
/-! SUPPORT. Tests: the well-formedness smoke, decoding of words written out from R60 and R61, one-step tests whose expected
results are those of 95_test_vectors.md, the texts, and a witness for the hypotheses of every statement that has some. -/

namespace Sys2Proof.Tests

open Sys2Proof.Machine

/-! ## Well-formedness: one ill-formed term for each check -/

theorem test_wf_fromInt_a : (Instr.fromInt 0xFFFFFFFF00000002 0).wf = false := by decide
theorem test_wf_fromInt_b : (Instr.fromInt 2 1).wf = false := by decide
theorem test_wf_toInt_a : (Instr.toInt 0x0000000100000000 0).wf = false := by decide
theorem test_wf_toInt_b : (Instr.toInt 0 0x80000000).wf = false := by decide
theorem test_wf_fromDouble_b : (Instr.fromDouble 0x3FF0000000000000 0x12345678).wf = false := by decide
theorem test_wf_toDouble_a : (Instr.toDouble 0x8000000000000000 0).wf = false := by decide
theorem test_wf_toDouble_b : (Instr.toDouble 1 1).wf = false := by decide
theorem test_wf_mul_a : (Instr.mul 0xFFFFFFFFFFFFFFFD 0x8000).wf = false := by decide
theorem test_wf_div_a : (Instr.div 0x0000000100000003 0x20000).wf = false := by decide
theorem test_wf_op6_a : (Instr.op6 1 0).wf = false := by decide
theorem test_wf_op6_b : (Instr.op6 0 1).wf = false := by decide
theorem test_wf_op7_a : (Instr.op7 0x100000000 0).wf = false := by decide
theorem test_wf_op7_b : (Instr.op7 0 0xFFFFFFFF).wf = false := by decide

/-- Every bit of a binary64 operand and both Fix16 operands are free. -/
theorem test_wf_accepts : [Instr.fromInt 0xFFFFFFFF 0, .toInt 1 0, .fromDouble 0xFFF8000000000001 0, .toDouble 0x80000000 0,
    .mul 0xFFFFFFFF 0xFFFFFFFF, .div 7 0, .op6 0 0, .op7 0 0].all Instr.wf = true := by decide

/-! ## Decoding: words written out field by field (R60: `op` in 98:96, `a` in 95:32, `b` in 31:0) -/

theorem test_decode_fromInt :
    decodeWord 0b000_0000000000000000000000000000000000000000000000000000000000000010_00000000000000000000000000000000
      = .ok (.fromInt 2 0) := by decide
theorem test_decode_toInt :
    decodeWord 0b001_0000000000000000000000000000000011111111111111000100000000000000_00000000000000000000000000000000
      = .ok (.toInt 0xFFFC4000 0) := by decide
theorem test_decode_fromDouble :
    decodeWord 0b010_0100000000001100000000000000000000000000000000000000000000000000_00000000000000000000000000000000
      = .ok (.fromDouble 0x400C000000000000 0) := by decide
theorem test_decode_toDouble :
    decodeWord 0b011_0000000000000000000000000000000000000000000000011000000000000000_00000000000000000000000000000000
      = .ok (.toDouble 0x18000 0) := by decide
theorem test_decode_mul :
    decodeWord 0b100_0000000000000000000000000000000000000000000000000000000000000011_00000000000000001000000000000000
      = .ok (.mul 3 0x8000) := by decide
theorem test_decode_div :
    decodeWord 0b101_0000000000000000000000000000000000000000000001110000000000000000_00000000000000100000000000000000
      = .ok (.div 0x70000 0x20000) := by decide
theorem test_decode_op6 :
    decodeWord 0b110_0000000000000000000000000000000011111111111111111111111111111111_11111111111111111111111111111111
      = .ok (.op6 0xFFFFFFFF 0xFFFFFFFF) := by decide
theorem test_decode_op7 :
    decodeWord 0b111_0000000000000000000000000000000000000000000000000000000000000000_00000000000000000000000000000000
      = .ok (.op7 0 0) := by decide

/-- The largest request word decodes; the number after it is no request word. -/
theorem test_decode_bounds :
    decodeWord (2 ^ 99 - 1) = .ok (.op7 0xFFFFFFFFFFFFFFFF 0xFFFFFFFF) ∧ decodeWord (2 ^ 99) = .error .notARequestWord := by
  decide

/-! ## One step -/

/-- The response on the ports after the step that completes a request word placed in the reset unit. -/
def responseOf (w : Nat) : Option Response :=
  match step (State.reset.withFetchWord 99 w) with
  | .next t => some t.response
  | .fault _ => none
  | .refused _ => none

/-- 41_conversion.md, the example and a corner case of R90: the whole of `a[31:0]` is read. -/
theorem test_fromInt_two : responseOf 0x0000000000000000200000000 = some ⟨0x20000, 0⟩ := by decide
theorem test_fromInt_wide : responseOf 0x0000000000001000000000000 = some ⟨0x7FFFFFFF, 1⟩ := by decide

/-- R91: floor, not truncation toward zero. -/
theorem test_toInt_negative : responseOf 0x100000000FFFC400000000000 = some ⟨0xFFFFFFFC, 0⟩ := by decide
theorem test_toInt_minus_lsb : responseOf 0x100000000FFFFFFFF00000000 = some ⟨0xFFFFFFFF, 0⟩ := by decide

/-- 95_test_vectors.md, 2.3: a tie away from zero, and a huge finite double. -/
theorem test_fromDouble_tie : responseOf 0x2BEE000000000000000000000 = some ⟨0xFFFFFFFF, 0⟩ := by decide
theorem test_fromDouble_huge : responseOf 0x2FE37E43C8800759C00000000 = some ⟨0x80000000, 1⟩ := by decide

/-- R95: 1.5, and `FIX16_MIN`. -/
theorem test_toDouble_half : responseOf 0x3000000000001800000000000 = some ⟨0x3FF8000000000000, 0⟩ := by decide
theorem test_toDouble_min : responseOf 0x3000000008000000000000000 = some ⟨0xC0E0000000000000, 0⟩ := by decide

/-- R100: `mul(-3, 0x8000) == -2`, and `mul(FIX16_MAX, from_int(2))`. -/
theorem test_mul_negative_tie : responseOf 0x400000000FFFFFFFD00008000 = some ⟨0xFFFFFFFE, 0⟩ := by decide
theorem test_mul_saturates : responseOf 0x4000000007FFFFFFF00020000 = some ⟨0x7FFFFFFF, 1⟩ := by decide

/-- R110: `div(-3, from_int(2)) == -2`; R113: a zero divisor. -/
theorem test_div_negative_tie : responseOf 0x500000000FFFFFFFD00020000 = some ⟨0xFFFFFFFE, 0⟩ := by decide
theorem test_div_by_zero : responseOf 0x5000000000007000000000000 = some ⟨0, 4⟩ := by decide

/-- R73. -/
theorem test_op6 : responseOf 0x600000000FFFFFFFFFFFFFFFF = some ⟨0, 5⟩ := by decide
theorem test_op7 : responseOf 0x7000000000000000000000000 = some ⟨0, 5⟩ := by decide

/-- R92: a NaN has the open value and `NAN_OPERAND`; the value is not looked into. -/
theorem test_fromDouble_nan :
    responseOf 0x27FF000000000000100000000 = some ⟨Config.nanResult.setWidth 64, 2⟩ := rfl

/-! ## Texts -/

/-- R75: the operands of the two-operand form, the sign, the comment. -/
theorem test_asm_mul :
    (readAsm "MUL 0x00000003, 0x00008000 ; 1.5").bind (fun l => l.request []) = some ⟨4, 3, 0x8000⟩ := by decide
theorem test_asm_fromInt :
    (readAsm "FROM_INT -1").bind (fun l => l.request []) = some ⟨0, 0xFFFFFFFF, 0⟩ := by decide

/-- R77: `v2 = TO_INT v1`; R60, R64: the two texts. -/
theorem test_script_line : readScriptLine "v2 = TO_INT v1" = some (2, .toInt (.line 1)) := by decide
theorem test_request_text : requestText ⟨4, 3, 0x8000⟩ = "0x4000000000000000300008000".toList := by decide
theorem test_response_text : responseText ⟨0x7FFFFFFF, 1⟩ = "0x1000000007FFFFFFF".toList := by decide

/-- R76: `div(3, from_int(2)) == 2` is two requests. -/
theorem test_nested_call : (Call.div (.literal 3) (.fromInt (.literal 2))).raw = some 2 := by decide

/-! ## Witnesses for the hypotheses of the statements

Small states: a phase, a count, the levels of the coming edges. -/

/-- A state in a phase with a scripted host. -/
def unitAt (st : Phase) (op : OpCode) (cnt : Nat) (script : List Pins) : State :=
  { State.reset with st := st, op := op, cnt := cnt, script := script }

/-- A host that resets. -/
def resetPins : Pins := ⟨true, true, 4, 3, 5, true⟩

/-- A host that presents a request. -/
def requestPins (op : OpCode) (a : Dword) (b : Word) : Pins := ⟨false, true, op, a, b, false⟩

/-- A host that takes a response. -/
def takePins : Pins := ⟨false, false, 0, 0, 0, true⟩

theorem witness_MaskAndMatchSelectTheRow : 2 ^ 99 ≤ (2 ^ 99 : Nat) ∧ (2 ^ 99 - 1 : Nat) < 2 ^ 99 := by decide

theorem witness_StepRunsTheLatchedOperation :
    let s := unitAt .busy 4 0 [Pins.quiet]
    s.pins.rst = false ∧ s.st = .busy ∧ s.cnt = 0 := by decide

theorem witness_PlacedWordRunsNext :
    decodeTableWord 99 0x4000000000000000300008000 = some (.mul 3 0x8000) := by decide

theorem witness_ResetEdgeRestoresEveryElement : (unitAt .done 5 3 [resetPins]).pins.rst = true := by decide

theorem witness_AcceptSamplesThePayload :
    let s := unitAt .idle 0 0 [requestPins 4 3 5]
    s.pins.rst = false ∧ s.st = .idle ∧ s.pins.reqValid = true := by decide

/-- Each of the three edges at which the payload has no effect, with two payloads that differ. -/
theorem witness_AcceptSamplesThePayload_elsewhere :
    let p := requestPins 4 3 5
    let q := requestPins 5 6 7
    (p ≠ q ∧ p.rst = q.rst ∧ p.reqValid = q.reqValid ∧ p.rspReady = q.rspReady ∧ (unitAt .busy 0 2 []).st ≠ .idle) ∧
    ({ p with reqValid := false } ≠ { q with reqValid := false }) ∧
    ({ p with rst := true } ≠ { q with rst := true }) := by decide

theorem witness_BusyCountsDown :
    let s := unitAt .busy 4 1 [Pins.quiet]
    s.pins.rst = false ∧ s.st = .busy ∧ 0 < s.cnt ∧ Pins.quiet.rst = takePins.rst := by decide

theorem witness_DeliverOrHoldTheResponse :
    let s := unitAt .done 4 0 [takePins]
    s.pins.rst = false ∧ s.st = .done ∧ s.pins.rspReady = true := by decide

/-- Two edges on which the host makes the response wait. -/
theorem witness_DeliverOrHoldTheResponse_held :
    let s := unitAt .done 4 0 [Pins.quiet, Pins.quiet]
    s.st = .done ∧ ∀ k < 2, (s.pinsAt k).rst = false ∧ (s.pinsAt k).rspReady = false := by decide

theorem witness_IdleUnitWaits :
    let s := unitAt .idle 0 0 [takePins]
    s.pins.rst = false ∧ s.st = .idle ∧ s.pins.reqValid = false := by decide

/-- Two states that differ in the model's own fields only. -/
theorem witness_SameUnit :
    let s := unitAt .idle 0 0 [takePins]
    let t := { unitAt .idle 0 0 [takePins, resetPins] with edge := 7, log := [.resetEdge] }
    s ≠ t ∧ SameUnit s t ∧ s.pins = t.pins ∧ ∃ u, step s = .next u := by
  refine ⟨by decide, ⟨rfl, rfl, rfl, rfl, rfl, rfl, rfl⟩, rfl, ?_⟩
  exact ⟨_, rfl⟩

/-- A state with the invariant in which a request has been answered, with no response on the ports, and its step. -/
theorem witness_StepKeepsInvariant_and_OutputsFollowTheState :
    let s : State := { unitAt .idle 4 0 [] with
      a := 3, b := 0x8000, res := 2, log := [.delivered ⟨2, 0⟩, .accepted ⟨4, 3, 0x8000⟩], script := [takePins] }
    s.Inv ∧ s.outputs.rspValid = false ∧ ∃ t, step s = .next t := by
  intro s
  have inv : s.Inv :=
    { wait := fun h => nomatch h
      answered := fun h => nomatch h
      shown := fun _ => rfl
      legalStatus := rfl
      errorData := fun h => absurd h (by decide)
      channel := by decide }
  exact ⟨inv, rfl, _, rfl⟩

theorem witness_RunsAnswerEveryRequestInOrder : Reachable State.reset := Reachable.reset []

/-- A run that ends with a response on the ports: reset, accept, and the edges of the latency are `CompletesAfterItsLatency`;
here the two first states of it. -/
theorem witness_Reachable_step : ∃ t, Reachable t ∧ t.st = .busy :=
  ⟨_, .step _ _ (.reset [requestPins 4 3 5]) rfl, rfl⟩

/-- A division presented at the first edge and no reset while it lasts. -/
theorem witness_CompletesAfterItsLatency :
    let s := unitAt .idle 0 0 (requestPins 5 7 2 :: List.replicate (Config.latency 5) Pins.quiet)
    s.st = .idle ∧ s.pins.reqValid = true ∧ s.pins.reqOp = 5 ∧
      ∀ k ≤ Config.latency 5, (s.pinsAt k).rst = false := by
  refine ⟨rfl, rfl, rfl, ?_⟩
  intro k hk
  cases k with
  | zero => rfl
  | succ k =>
    have hk : k < Config.latency 5 := hk
    have hr : (List.replicate (Config.latency 5) Pins.quiet)[k]? = some Pins.quiet := by
      rw [List.getElem?_replicate, if_pos hk]
    change ((List.replicate (Config.latency 5) Pins.quiet)[k]?.getD _).rst = false
    rw [hr]
    rfl

/-- A script of two requests and one edge more. -/
theorem witness_RequestsAreServedInOrder :
    let rs : List Request := [⟨4, 3, 0x8000⟩, ⟨5, 7, 0⟩]
    let s := unitAt .idle 0 0 (rs.flatMap hostEdges ++ [Pins.quiet])
    s.st = .idle ∧ s.script = rs.flatMap hostEdges ++ [Pins.quiet] ∧ rs.getLast? = some ⟨5, 7, 0⟩ := ⟨rfl, rfl, rfl⟩

theorem witness_RequestAfterResetIsAccepted :
    let s := unitAt .busy 5 9 [resetPins, requestPins 4 3 5]
    s.pins.rst = true ∧ (s.pinsAt 1).rst = false ∧ (s.pinsAt 1).reqValid = true := by decide

theorem witness_IgnoredOperandBitsHaveNoEffect :
    (0xFFFFFFFF00000003 : Dword) ≠ 3 ∧
      (0xFFFFFFFF00000003 : Dword).extractLsb' 0 32 = (3 : Dword).extractLsb' 0 32 := by decide

/-- An error response, so that the data clause of `ResultPlacement` speaks of something. -/
theorem witness_ResultPlacement :
    ∃ t, exec (.div 7 0) State.reset = .next t ∧ isErrorCode t.stat = true := ⟨_, rfl, rfl⟩

/-- The four boundary integers of FROM_INT, in `a[31:0]` under leftovers. -/
theorem witness_FromIntExactOrClamped :
    (((0xFFFFFFFFFFFF8000 : Dword).extractLsb' 0 32).toInt = -32768) ∧
    (((0x00000000FFFF7FFF : Dword).extractLsb' 0 32).toInt = -32769) ∧
    (((0x1234567800007FFF : Dword).extractLsb' 0 32).toInt = 32767) ∧
    (((0x0000000000008000 : Dword).extractLsb' 0 32).toInt = 32768) := by decide

/-- The value of a binary64 that is no infinity and no NaN, from its fields (R71). -/
theorem dblValue_of_fields (d : Dword) (e f : Nat) (he : dblExponent d = e) (hf : dblFraction d = f)
    (normal : e ≠ 0) (finite : e ≠ 2047) :
    dblValue d = some ((if dblSign d then -1 else 1) * (2 ^ 52 + (f : ℚ)) * (2 : ℚ) ^ ((e : ℤ) - 1075)) := by
  simp only [dblValue, he, hf, if_neg normal, if_neg finite]

/-- 1.0 is the value of 0x3FF0000000000000. -/
theorem witness_dblValue_one : dblValue 0x3FF0000000000000 = some 1 := by
  rw [dblValue_of_fields _ 1023 0 (by decide) (by decide) (by decide) (by decide)]
  have hs : dblSign 0x3FF0000000000000 = false := by decide
  rw [hs]
  norm_num

/-- The infinities and the smallest NaN pattern. -/
theorem witness_FromDoubleRoundsTheExactValue_nan :
    (0x7FF0000000000001 : Dword).extractLsb' 52 11 = 2047 ∧ (0x7FF0000000000001 : Dword).extractLsb' 0 52 ≠ 0 := by decide

theorem witness_ValueDeterminesTheDouble :
    dblValue 0x3FF0000000000000 = some 1 ∧ (0x3FF0000000000000 : Dword) ≠ 0x8000000000000000 :=
  ⟨witness_dblValue_one, by decide⟩

theorem witness_IntegersRoundTrip :
    -32768 ≤ (0xFFFF8000 : Word).toInt ∧ (0xFFFF8000 : Word).toInt ≤ 32767 := by decide

/-- A tie. -/
theorem witness_RoundingIsNearestTiesAway : |((rhafz (1 / 2) : ℤ) : ℚ) - 1 / 2| = 1 / 2 := by
  have h : rhafz (1 / 2) = 1 := by
    have hp : (0 : ℚ) < 1 / 2 := by norm_num
    rw [rhafz, sign_pos hp, abs_of_pos hp]
    norm_num
  rw [h]
  norm_num

theorem witness_RoundingProperties : (1 / 2 : ℚ) ≤ 3 / 2 ∧ 0 ≤ ((-2 : ℤ) : ℚ) * (-1 / 2) := by norm_num

/-- A divisor of each sign for the statements on `rhafzDiv`. -/
theorem witness_divisors : (131072 : ℤ) ≠ 0 ∧ (-1 : ℤ) ≠ 0 := by decide

/-- The integers next to the two bounds, one for each clause of `sat32`. -/
theorem witness_SaturationClampsToTheNearestBound :
    (2147483647 : ℤ) < 2147483648 ∧ (-2147483649 : ℤ) < -2147483648 ∧
      (-2147483648 : ℤ) ≤ 2147483647 ∧ (2147483647 : ℤ) ≤ 2147483647 := by decide

/-- The first and third clauses of `MulSignSymmetry`, the latter with both operands negatable. -/
theorem witness_MulSignSymmetry :
    let a : Word := 3
    let b : Word := 0x8000
    a ≠ 0x80000000 ∧ b ≠ 0x80000000 ∧ (mulResult a b).status = .ok ∧
      (lowWord (mulResult a b).data).toInt ≠ -2147483648 ∧ (mulResult b a).status = .ok ∧
      (lowWord (mulResult b a).data).toInt ≠ -2147483648 := by decide

/-- A rounded product just above the range: `mul(0x7FFF8000, 0x00010001)` of R100, whose negation is `OK`, and one that is
further out. -/
theorem witness_MulSignSymmetry_saturated :
    mulRounded 0x7FFF8000 0x00010001 = 2147483648 ∧ 2147483648 < mulRounded 0x7FFFFFFF 0x00020000 := by decide

/-- The zero divisor, the smallest divisors of each sign, and the one whose magnitude needs 32 bits. -/
theorem witness_DivRoundsTheExactQuotient :
    (0 : Word) = 0 ∧ (1 : Word) ≠ 0 ∧ (0xFFFFFFFF : Word) ≠ 0 ∧ (0x80000000 : Word) ≠ 0 := by decide

theorem witness_DividerWidthsSuffice : (0x80000000 : Word) ≠ 0 ∧ (0x80000000 : Word).toInt.natAbs = 2 ^ 31 := by decide

theorem witness_ResultsClampTheRoundedInteger :
    dblValue 0x3FF0000000000000 = some 1 ∧ (1 : Word) ≠ 0 ∧ (2147483647 : ℤ) ≤ 2147483648 :=
  ⟨witness_dblValue_one, by decide, by decide⟩

/-- A divisor of real magnitude 1.0 with which DIV saturates, and one with which it does not. -/
theorem witness_DivSaturatesBySign :
    (0xFFFF0000 : Word) ≠ 0 ∧ 65536 ≤ (0xFFFF0000 : Word).toInt.natAbs ∧
      (divResult 0x80000000 0xFFFF0000).status = .saturated ∧ (divResult 0x7FFFFFFF 0xFFFF0000).status = .ok := by decide

theorem witness_DivSignSymmetry :
    let a : Word := 3
    let b : Word := 0x20000
    b ≠ 0 ∧ a ≠ 0x80000000 ∧ b ≠ 0x80000000 ∧ (divResult a b).status = .ok ∧
      (lowWord (divResult a b).data).toInt ≠ -2147483648 := by decide

theorem witness_ZeroLaws : (0xFFFFFFFF00000000 : Dword).extractLsb' 0 32 = 0 ∧ (5 : Word) ≠ 0 := by decide

/-- The response to a zero divisor is taken at the next edge. -/
theorem witness_ZeroDivisorIsAnErrorResponse :
    let s := unitAt .busy 5 0 [takePins]
    s.pins.rst = false ∧ s.pins.rspReady = true := by decide

/-- A rounded result of MUL, of DIV, and of FROM_DOUBLE, each with `OK`. -/
theorem witness_ResultsAreWithinHalfAUnit :
    (mulResult 3 0x8000).status = .ok ∧ (divResult 2 0x8001).status = .ok ∧
      dblValue 0x3FF0000000000000 = some 1 ∧ (fromDoubleResult 0x3FF0000000000000).status = .ok :=
  ⟨by decide, by decide, witness_dblValue_one, by decide⟩

theorem witness_OperatorsAgreeWithTheRealReference :
    dblValue (toDoubleResult 0x10000).data = some 1 ∧ (0x10000 : Word) ≠ 0 := by
  have h : (toDoubleResult 0x10000).data = 0x3FF0000000000000 := by decide
  rw [h]
  exact ⟨witness_dblValue_one, by decide⟩

theorem witness_ReservedCodesAnswerIllegalOp :
    let s := unitAt .idle 0 0 [requestPins 6 3 5]
    s.pins.rst = false ∧ s.st = .idle ∧ s.pins.reqValid = true ∧ 6 ≤ s.pins.reqOp.toNat := by decide

end Sys2Proof.Tests
end

section
/-! The unit's own rules: what an operation's result is, what one edge does in each phase, what the event log and the
invariant say about each transition, and how a run of edges goes through a wait. The obligations of 10_state.md follow. -/

namespace Sys2Proof.Machine

/-! ## The result of an operation -/

/-- The result pair of an operation (R10, R31). -/
def resultOf : Instr → Result
  | .fromInt a _ => fromIntResult (lowWord a)
  | .toInt a _ => toIntResult (lowWord a)
  | .fromDouble a _ => fromDoubleResult a
  | .toDouble a _ => toDoubleResult (lowWord a)
  | .mul a b => mulResult (lowWord a) b
  | .div a b => divResult (lowWord a) b
  | .op6 _ _ => raise .illegalOp
  | .op7 _ _ => raise .illegalOp

/-- Every operation completes with its result pair (R23, R63). -/
theorem exec_eq_complete (i : Instr) (s : State) : exec i s = .next (s.complete (resultOf i)) := by
  cases i <;> rfl

/-- The response to a request is the result pair of its operation. -/
theorem responseTo_eq (r : Request) :
    responseTo r =
      some ⟨(resultOf (decodeFields r.op r.a r.b)).data, (resultOf (decodeFields r.op r.a r.b)).status.code⟩ := by
  simp only [responseTo, exec_eq_complete, State.complete_response]

/-- Every status is read back from its code (R66). -/
theorem Status.ofCode_code (st : Status) : Status.ofCode st.code = some st := by
  cases st <;> rfl

/-- An error status comes with data zero (R65, R141). -/
def Result.ErrorDataZero (r : Result) : Prop := isErrorCode r.status.code = true → r.data = 0

theorem Result.errorDataZero_of_status {r : Result} {st : Status} (hst : r.status = st)
    (h : isErrorCode st.code = false) : r.ErrorDataZero := by
  intro he
  rw [hst, h] at he
  nomatch he

/-- A clamped value is never an error: its status is `OK` or `SATURATED` (R85). -/
theorem clampedResult_errorDataZero (v : Int) : (clampedResult v).ErrorDataZero := by
  obtain ⟨_, hsat⟩ | ⟨_, hsat⟩ | ⟨_, _, hsat⟩ := sat32_cases v
  · exact Result.errorDataZero_of_status (congrArg Prod.snd hsat) (by decide)
  · exact Result.errorDataZero_of_status (congrArg Prod.snd hsat) (by decide)
  · exact Result.errorDataZero_of_status (st := .ok) (congrArg Prod.snd hsat) (by decide)

theorem raise_errorDataZero (e : OpError) : (raise e).ErrorDataZero := fun _ => raise_data e

theorem fromDoubleResult_errorDataZero (d : Dword) : (fromDoubleResult d).ErrorDataZero := by
  unfold fromDoubleResult
  cases dblClass d with
  | nan => exact Result.errorDataZero_of_status (st := .nanOperand) rfl (by decide)
  | infinity => exact Result.errorDataZero_of_status (st := .saturated) rfl (by decide)
  | zero => exact clampedResult_errorDataZero _
  | subnormal => exact clampedResult_errorDataZero _
  | normal => exact clampedResult_errorDataZero _

theorem divResult_errorDataZero (a b : Word) : (divResult a b).ErrorDataZero := by
  unfold divResult
  split
  · exact raise_errorDataZero _
  · exact clampedResult_errorDataZero _

/-- No operation answers an error with data (R65, R140). -/
theorem resultOf_errorDataZero (i : Instr) : (resultOf i).ErrorDataZero := by
  cases i with
  | fromInt a b => exact clampedResult_errorDataZero _
  | toInt a b => exact Result.errorDataZero_of_status (st := .ok) rfl (by decide)
  | fromDouble a b => exact fromDoubleResult_errorDataZero a
  | toDouble a b => exact Result.errorDataZero_of_status (st := .ok) rfl (by decide)
  | mul a b => exact clampedResult_errorDataZero _
  | div a b => exact divResult_errorDataZero _ b
  | op6 a b => exact raise_errorDataZero _
  | op7 a b => exact raise_errorDataZero _

/-! ## The request word -/

/-- A request word is read back as its three fields (R60, R63). -/
@[simp] theorem decodeRequest_word (r : Request) : decodeRequest r.word = decodeFields r.op r.a r.b := by
  simp only [decodeRequest, Request.word, reqOpField_append, reqAField_append, reqBField_append]

/-- What the decoder reads from a table's word is the operation of that word's three fields. -/
theorem decodeRequest_of_decodeTableWord {nbits w : Nat} {i : Instr} (h : decodeTableWord nbits w = some i) :
    decodeRequest (BitVec.ofNat 99 (w % 2 ^ nbits)) = i := by
  unfold decodeTableWord decodeWord at h
  by_cases hw : w % 2 ^ nbits < 2 ^ 99
  · rw [if_pos hw] at h
    exact Option.some.inj h
  · rw [if_neg hw] at h
    nomatch h

/-- A placed word stands in the latches as the operation the decoder reads. -/
theorem instr_withFetchWord (s : State) (nbits w : Nat) :
    (s.withFetchWord nbits w).instr = decodeRequest (BitVec.ofNat 99 (w % 2 ^ nbits)) := rfl

/-! ## One edge in each phase -/

theorem clockEdge_reset {p : Pins} (s : State) (rst : p.rst = true) : clockEdge p s = .next s.resetEdge := by
  simp [clockEdge, rst]

theorem clockEdge_idle {p : Pins} {s : State} (rst : p.rst = false) (st : s.st = .idle) :
    clockEdge p s = .next (if p.reqValid then s.accept p else s) := by
  simp [clockEdge, rst, st]

theorem clockEdge_busy {p : Pins} {s : State} (rst : p.rst = false) (st : s.st = .busy) :
    clockEdge p s = if 0 < s.cnt then .next s.count else .next (s.complete (resultOf s.instr)) := by
  simp [clockEdge, rst, st, exec_eq_complete]

theorem clockEdge_done {p : Pins} {s : State} (rst : p.rst = false) (st : s.st = .done) :
    clockEdge p s = .next (if p.rspReady then s.deliver else s) := by
  simp [clockEdge, rst, st]

theorem step_of_clockEdge {s t : State} (h : clockEdge s.pins s = .next t) : step s = .next t.advance := by
  rw [step, h]
  rfl

theorem step_accept {s : State} (rst : s.pins.rst = false) (st : s.st = .idle) (valid : s.pins.reqValid = true) :
    step s = .next (s.accept s.pins).advance :=
  step_of_clockEdge (by rw [clockEdge_idle rst st, if_pos valid])

theorem step_idle_wait {s : State} (rst : s.pins.rst = false) (st : s.st = .idle) (valid : s.pins.reqValid = false) :
    step s = .next s.advance :=
  step_of_clockEdge (by simp [clockEdge_idle rst st, valid])

theorem step_count {s : State} (rst : s.pins.rst = false) (st : s.st = .busy) (wait : 0 < s.cnt) :
    step s = .next s.count.advance :=
  step_of_clockEdge (by rw [clockEdge_busy rst st, if_pos wait])

theorem step_complete {s : State} (rst : s.pins.rst = false) (st : s.st = .busy) (last : s.cnt = 0) :
    step s = .next (s.complete (resultOf s.instr)).advance :=
  step_of_clockEdge (by simp [clockEdge_busy rst st, last])

theorem step_deliver {s : State} (rst : s.pins.rst = false) (st : s.st = .done) (ready : s.pins.rspReady = true) :
    step s = .next s.deliver.advance :=
  step_of_clockEdge (by rw [clockEdge_done rst st, if_pos ready])

theorem step_hold {s : State} (rst : s.pins.rst = false) (st : s.st = .done) (ready : s.pins.rspReady = false) :
    step s = .next s.advance :=
  step_of_clockEdge (by simp [clockEdge_done rst st, ready])

/-- A next state of the step is the unit's next state with the environment moved on. -/
theorem clockEdge_of_step {s t : State} (h : step s = .next t) : ∃ u, clockEdge s.pins s = .next u ∧ t = u.advance :=
  passEdge_eq_next.mp h

/-! ## The elements alone decide -/

theorem SameUnit.outputs_eq {s t : State} (h : SameUnit s t) : s.outputs = t.outputs := by
  obtain ⟨st, _, _, _, _, res, stat⟩ := h
  simp only [State.outputs, st, res, stat]

theorem SameUnit.instr_eq {s t : State} (h : SameUnit s t) : s.instr = t.instr := by
  obtain ⟨_, op, a, b, _, _, _⟩ := h
  simp only [State.instr, op, a, b]

theorem SameUnit.advance {s t : State} (h : SameUnit s t) : SameUnit s.advance t.advance := h

theorem SameUnit.resetEdge (s t : State) : SameUnit s.resetEdge t.resetEdge :=
  ⟨rfl, rfl, rfl, rfl, rfl, rfl, rfl⟩

theorem SameUnit.accept {s t : State} (p : Pins) (h : SameUnit s t) : SameUnit (s.accept p) (t.accept p) := by
  obtain ⟨_, _, _, _, _, res, stat⟩ := h
  exact ⟨rfl, rfl, rfl, rfl, rfl, res, stat⟩

theorem SameUnit.count {s t : State} (h : SameUnit s t) : SameUnit s.count t.count := by
  obtain ⟨st, op, a, b, cnt, res, stat⟩ := h
  exact ⟨st, op, a, b, congrArg (· - 1) cnt, res, stat⟩

theorem SameUnit.complete {s t : State} (r : Result) (h : SameUnit s t) : SameUnit (s.complete r) (t.complete r) := by
  obtain ⟨_, op, a, b, cnt, _, _⟩ := h
  exact ⟨rfl, op, a, b, cnt, rfl, rfl⟩

theorem SameUnit.deliver {s t : State} (h : SameUnit s t) : SameUnit s.deliver t.deliver := by
  obtain ⟨_, op, a, b, cnt, res, stat⟩ := h
  exact ⟨rfl, op, a, b, cnt, res, stat⟩

/-- At an edge with equal inputs, equal elements become equal elements: each transition of the one unit is the same
transition of the other (R20, R31). -/
theorem SameUnit.clockEdge {p : Pins} {s t s' : State} (h : SameUnit s t) (hs : clockEdge p s = .next s') :
    ∃ t', Machine.clockEdge p t = .next t' ∧ SameUnit s' t' := by
  obtain ⟨st, _, _, _, cnt, _, _⟩ := id h
  obtain ⟨rst, rfl⟩ | ⟨rst, idle, valid, rfl⟩ | ⟨rst, idle, valid, rfl⟩ | ⟨rst, busy, wait, rfl⟩ |
    ⟨rst, busy, last, he⟩ | ⟨rst, done, ready, rfl⟩ | ⟨rst, done, ready, rfl⟩ := clockEdge_cases hs
  · exact ⟨_, clockEdge_reset t rst, .resetEdge s t⟩
  · exact ⟨t.accept p, by simp [clockEdge_idle rst (st ▸ idle), valid], h.accept p⟩
  · exact ⟨t, by simp [clockEdge_idle rst (st ▸ idle), valid], h⟩
  · exact ⟨t.count, by simp [clockEdge_busy rst (st ▸ busy), cnt ▸ wait], h.count⟩
  · rw [exec_eq_complete, h.instr_eq] at he
    cases he
    exact ⟨_, by simp [clockEdge_busy rst (st ▸ busy), cnt ▸ last], h.complete _⟩
  · exact ⟨t.deliver, by simp [clockEdge_done rst (st ▸ done), ready], h.deliver⟩
  · exact ⟨t, by simp [clockEdge_done rst (st ▸ done), ready], h⟩

/-! ## The event log -/

theorem outstanding_accepted {l : List Event} (r : Request) (h : outstanding l = some none) :
    outstanding (.accepted r :: l) = some (some r) := by
  simp only [outstanding, h]

theorem outstanding_delivered {l : List Event} {r : Request} {q : Response} (h : outstanding l = some (some r))
    (hq : responseTo r = some q) : outstanding (.delivered q :: l) = some none := by
  simp only [outstanding, h, hq, if_true]

theorem outstanding_resetEdge {l : List Event} {o : Option Request} (h : outstanding l = some o) :
    outstanding (.resetEdge :: l) = some none := by
  simp only [outstanding, h]

theorem State.held_of_idle {s : State} (h : s.st = .idle) : s.held = none := if_pos h

theorem State.held_of_ne_idle {s : State} (h : s.st ≠ .idle) : s.held = some s.request := if_neg h

/-! ## The invariant under each transition -/

/-- The invariant speaks of nothing that the environment's moving on changes. -/
theorem State.Inv.advance {s : State} (h : s.Inv) : s.advance.Inv where
  wait := h.wait
  answered := h.answered
  shown := h.shown
  legalStatus := h.legalStatus
  errorData := h.errorData
  channel := h.channel

/-- The clauses of the invariant on a unit in `IDLE`. -/
theorem State.inv_of_idle {s : State} (st : s.st = .idle) (shown : s.response = lastShown s.log)
    (legalStatus : (Status.ofCode s.stat).isSome = true) (errorData : isErrorCode s.stat = true → s.res = 0)
    (channel : outstanding s.log = some none) : s.Inv where
  wait := fun hb => by simp [st] at hb
  answered := fun hd => by simp [st] at hd
  shown := fun _ => shown
  legalStatus := legalStatus
  errorData := errorData
  channel := by rw [channel, State.held_of_idle st]

theorem State.reset_inv (script : List Pins) : State.Inv { State.reset with script := script } :=
  State.inv_of_idle rfl rfl rfl (fun _ => rfl) rfl

theorem State.Inv.resetEdge {s : State} (h : s.Inv) : s.resetEdge.Inv :=
  State.inv_of_idle rfl rfl rfl (fun _ => rfl) (outstanding_resetEdge h.channel)

theorem State.Inv.accept {s : State} (p : Pins) (h : s.Inv) (st : s.st = .idle) : (s.accept p).Inv where
  wait := fun _ => Nat.sub_lt (Nat.succ_pos _) Nat.one_pos
  answered := fun hd => nomatch hd
  shown := fun _ => h.shown (by simp [st])
  legalStatus := h.legalStatus
  errorData := h.errorData
  channel := outstanding_accepted _ (by rw [h.channel, State.held_of_idle st])

theorem State.Inv.count {s : State} (h : s.Inv) : s.count.Inv where
  wait := fun hb => (Nat.sub_le _ _).trans_lt (h.wait hb)
  answered := h.answered
  shown := h.shown
  legalStatus := h.legalStatus
  errorData := h.errorData
  channel := h.channel

/-- Completion turns the request in the latches into its response and owes it still. -/
theorem State.Inv.complete {s : State} (h : s.Inv) (st : s.st = .busy) :
    (s.complete (resultOf s.instr)).Inv where
  wait := fun hb => nomatch hb
  answered := fun _ => responseTo_eq s.request
  shown := fun hd => absurd rfl hd
  legalStatus := by rw [State.complete_stat, Status.ofCode_code]; rfl
  errorData := resultOf_errorDataZero s.instr
  channel := by
    have owed : s.held = some s.request := State.held_of_ne_idle (by simp [st])
    rw [State.complete_log, h.channel, owed, State.held_of_ne_idle (by simp), State.complete_request]

/-- Delivery pays the one outstanding request with its own response. -/
theorem State.Inv.deliver {s : State} (h : s.Inv) (st : s.st = .done) : s.deliver.Inv := by
  have owed : outstanding s.log = some (some s.request) := by
    rw [h.channel, State.held_of_ne_idle (by simp [st])]
  exact State.inv_of_idle rfl rfl h.legalStatus h.errorData (outstanding_delivered owed (h.answered st))

/-- One edge keeps the invariant, whichever transition it is. -/
theorem State.Inv.clockEdge {p : Pins} {s t : State} (h : s.Inv) (hs : clockEdge p s = .next t) : t.Inv := by
  obtain ⟨_, rfl⟩ | ⟨_, idle, _, rfl⟩ | ⟨_, _, _, rfl⟩ | ⟨_, _, _, rfl⟩ | ⟨_, busy, _, he⟩ |
    ⟨_, done, _, rfl⟩ | ⟨_, _, _, rfl⟩ := clockEdge_cases hs
  · exact h.resetEdge
  · exact h.accept p idle
  · exact h
  · exact h.count
  · rw [exec_eq_complete] at he
    cases he
    exact h.complete busy
  · exact h.deliver done
  · exact h

theorem State.Inv.step {s t : State} (h : s.Inv) (hs : step s = .next t) : t.Inv := by
  obtain ⟨u, hu, rfl⟩ := clockEdge_of_step hs
  exact (h.clockEdge hu).advance

theorem Reachable.inv {s : State} (h : Reachable s) : s.Inv := by
  induction h with
  | reset script => exact State.reset_inv script
  | step s t _ hs ih => exact ih.step hs

/-! ## Runs of edges -/

/-- The environment moved on by `n` edges, the unit as it was. -/
def State.skip (n : Nat) (s : State) : State := { s with script := s.script.drop n, edge := s.edge + n }

@[simp] theorem State.skip_instr (n : Nat) (s : State) : (s.skip n).instr = s.instr := rfl

theorem State.sameUnit_skip (n : Nat) (s : State) : SameUnit s (s.skip n) := ⟨rfl, rfl, rfl, rfl, rfl, rfl, rfl⟩

/-- One edge and `n` more. -/
theorem State.skip_advance (n : Nat) (s : State) : s.advance.skip n = s.skip (n + 1) := by
  simp [State.skip, State.advance, Nat.add_assoc, Nat.add_comm 1 n]

/-- `n` edges and one more. -/
theorem State.advance_skip (n : Nat) (s : State) : (s.skip n).advance = s.skip (n + 1) := by
  simp [State.skip, State.advance, Nat.add_assoc]

/-- The environment moves on the same whether an operation completes before it or after it. -/
theorem State.complete_skip (n : Nat) (r : Result) (s : State) : (s.skip n).complete r = (s.complete r).skip n := rfl

/-- The inputs of an edge seen from the state `n` edges later. -/
@[simp] theorem State.skip_pinsAt (n k : Nat) (s : State) : (s.skip n).pinsAt k = s.pinsAt (n + k) := by
  simp [State.skip, State.pinsAt, Nat.add_assoc]

/-- A response that the host does not take is held (R24). -/
theorem edges_hold (n : Nat) {s : State} (st : s.st = .done)
    (held : ∀ k < n, (s.pinsAt k).rst = false ∧ (s.pinsAt k).rspReady = false) : edges n s = .next (s.skip n) := by
  induction n generalizing s with
  | zero => rfl
  | succ n ih =>
    obtain ⟨rst, ready⟩ := held 0 n.succ_pos
    rw [edges_succ n (step_hold rst st ready), ← State.skip_advance]
    exact ih st fun k hk => by simpa using held (k + 1) (Nat.succ_lt_succ hk)

/-- The count of edges to wait lowered by `n`. -/
def State.countDown (n : Nat) (s : State) : State := { s with cnt := s.cnt - n }

@[simp] theorem State.countDown_instr (n : Nat) (s : State) : (s.countDown n).instr = s.instr := rfl
@[simp] theorem State.countDown_pinsAt (n k : Nat) (s : State) : (s.countDown n).pinsAt k = s.pinsAt k := rfl

@[simp] theorem State.accept_pinsAt (p : Pins) (k : Nat) (s : State) : (s.accept p).pinsAt k = s.pinsAt k := rfl
@[simp] theorem State.count_pinsAt (k : Nat) (s : State) : s.count.pinsAt k = s.pinsAt k := rfl

theorem State.countDown_count (n : Nat) (s : State) : s.count.countDown n = s.countDown (n + 1) := by
  simp [State.countDown, State.count, Nat.sub_sub, Nat.add_comm 1 n]

/-- In `BUSY` without reset the edges up to the last of the wait only count (R23). -/
theorem edges_count (n : Nat) {s : State} (st : s.st = .busy) (wait : n ≤ s.cnt)
    (rst : ∀ k < n, (s.pinsAt k).rst = false) : edges n s = .next ((s.countDown n).skip n) := by
  induction n generalizing s with
  | zero => rfl
  | succ n ih =>
    rw [edges_succ n (step_count (rst 0 n.succ_pos) st (Nat.lt_of_lt_of_le n.succ_pos wait)),
      ← State.countDown_count, ← State.skip_advance]
    exact ih (s := s.count.advance) st (Nat.le_sub_one_of_lt wait) fun k hk => by
      simpa using rst (k + 1) (Nat.succ_lt_succ hk)

/-- What the wait and the completion of the operation in the latches leave: the count run out, the result written, the
edges still to wait and the completing one passed (R23). -/
def State.finish (s : State) : State :=
  ((s.countDown s.cnt).complete (resultOf s.instr)).skip (s.cnt + 1)

theorem State.finish_pinsAt (s : State) (k : Nat) : s.finish.pinsAt k = s.pinsAt (s.cnt + 1 + k) :=
  State.skip_pinsAt _ _ _

/-- In `BUSY` without reset the operation completes at the edge after those still to wait (R23). -/
theorem edges_finish {s : State} (st : s.st = .busy) (rst : ∀ k ≤ s.cnt, (s.pinsAt k).rst = false) :
    edges (s.cnt + 1) s = .next s.finish := by
  have count := edges_count s.cnt st le_rfl fun k hk => rst k hk.le
  have last := step_complete (s := (s.countDown s.cnt).skip s.cnt)
    (by simpa [State.pins] using rst s.cnt le_rfl) st (Nat.sub_self _)
  rw [edges_add 1 count, edges_succ 0 last, edges_zero, State.complete_skip, State.advance_skip,
    State.skip_instr, State.countDown_instr]
  rfl

/-- What the request on the ports leaves when it is accepted and completes without reset (R22, R23). -/
def State.served (s : State) : State := (s.accept s.pins).advance.finish

theorem State.served_script (s : State) : s.served.script = s.script.drop (Config.latency s.pins.reqOp + 1) :=
  List.drop_tail

theorem State.served_pinsAt (s : State) (k : Nat) :
    s.served.pinsAt k = s.pinsAt (Config.latency s.pins.reqOp + k + 1) := by
  rw [State.served, State.finish_pinsAt, State.advance_pinsAt]
  rfl

theorem State.served_log (s : State) : s.served.log = .accepted (pinsRequest s.pins) :: s.log := rfl

/-- The served request's response stands on the ports (R34). -/
theorem State.served_response (s : State) : responseTo (pinsRequest s.pins) = some s.served.response :=
  responseTo_eq _

/-- At every edge of its latency but the last, an accepted operation is in `BUSY` (R23). -/
theorem edges_accept_busy {s : State} (st : s.st = .idle) (valid : s.pins.reqValid = true) {k : Nat}
    (hk : k < Config.latency s.pins.reqOp) (rst : ∀ j ≤ k, (s.pinsAt j).rst = false) :
    ∃ u, edges (k + 1) s = .next u ∧ u.st = .busy := by
  have count := edges_count k (s := (s.accept s.pins).advance) rfl (Nat.le_of_lt_succ hk) fun j hj => by
    simpa using rst (j + 1) hj
  exact ⟨_, (edges_succ k (step_accept (rst 0 k.zero_le) st valid)).trans count, rfl⟩

/-- An accepted operation completes at the `LATENCY(op)`-th edge after its acceptance (R23, R170). -/
theorem edges_accept_complete {s : State} (st : s.st = .idle) (valid : s.pins.reqValid = true)
    (rst : ∀ k ≤ Config.latency s.pins.reqOp, (s.pinsAt k).rst = false) :
    edges (Config.latency s.pins.reqOp + 1) s = .next s.served := by
  rw [edges_succ _ (step_accept (rst 0 (Nat.zero_le _)) st valid)]
  exact edges_finish (s := (s.accept s.pins).advance) rfl fun k hk => by
    simpa using rst (k + 1) (Nat.succ_le_succ hk)

/-! ## A host that performs requests one after another -/

/-- The levels a host drives while the unit works. -/
theorem hostEdges_getElem?_wait {r : Request} {k : Nat} (rest : List Pins) (hk : k < Config.latency r.op) :
    (hostEdges r ++ rest)[k + 1]? = some Pins.quiet := by
  simp [hostEdges, hk, List.getElem?_append]

/-- The levels a host drives to take the response. -/
theorem hostEdges_getElem?_take (r : Request) (rest : List Pins) :
    (hostEdges r ++ rest)[Config.latency r.op + 1]? = some ⟨false, false, 0, 0, 0, true⟩ := by
  simp [hostEdges]

theorem hostEdges_length (r : Request) : (hostEdges r).length = Config.latency r.op + 2 := by
  simp [hostEdges]

theorem State.pinsAt_of_script {s : State} {k : Nat} {p : Pins} (h : s.script[k]? = some p) : s.pinsAt k = p := by
  simp [State.pinsAt, h]

/-- One request performed by its host: `LATENCY(op) + 2` edges, its own response, and the unit idle again (R77, R171). -/
theorem edges_hostEdges {s : State} {r : Request} {rest : List Pins} (st : s.st = .idle)
    (script : s.script = hostEdges r ++ rest) :
    ∃ t, edges (Config.latency r.op + 2) s = .next t ∧ t.st = .idle ∧ t.script = rest ∧
      t.log = hostEvents r ++ s.log ∧ responseTo r = some t.response := by
  have present : s.pins = ⟨false, true, r.op, r.a, r.b, false⟩ := State.pinsAt_of_script (by rw [script]; rfl)
  have take : s.pinsAt (Config.latency r.op + 1) = ⟨false, false, 0, 0, 0, true⟩ :=
    State.pinsAt_of_script (by rw [script, hostEdges_getElem?_take])
  have op : s.pins.reqOp = r.op := by rw [present]
  have request : pinsRequest s.pins = r := by rw [present]; rfl
  have noReset : ∀ k ≤ Config.latency s.pins.reqOp, (s.pinsAt k).rst = false := by
    rintro (_ | k) hk
    · exact congrArg Pins.rst present
    · rw [State.pinsAt_of_script (by rw [script, hostEdges_getElem?_wait rest (op ▸ hk)])]
      rfl
  have work := edges_accept_complete st (by rw [present]) noReset
  have taken : s.served.pins = ⟨false, false, 0, 0, 0, true⟩ := by
    rw [State.pins, State.served_pinsAt, op]
    exact take
  have deliver := step_deliver (s := s.served) (by rw [taken]) rfl (by rw [taken])
  have response : responseTo r = some s.served.response := request ▸ s.served_response
  rw [op] at work
  refine ⟨s.served.deliver.advance, ?_, rfl, ?_, ?_, response⟩
  · rw [edges_add 1 work, edges_succ 0 deliver, edges_zero]
  · calc s.served.script.tail
      _ = (hostEdges r ++ rest).drop (Config.latency r.op + 2) := by
        rw [State.served_script, List.tail_drop, op, script]
      _ = rest := List.drop_left' (hostEdges_length r)
  · simp [State.served_log, hostEvents, response, request]

end Sys2Proof.Machine
end

section
/-! The obligations of 10_state.md. -/

namespace Sys2Proof.Proofs

open Sys2Proof.Machine

/-- Settles O16: each transition keeps the invariant (`State.Inv.clockEdge`), and the environment's moving on does too. -/
theorem stepKeepsInvariant : Obligations.StepKeepsInvariant := fun _ _ inv hs => inv.step hs

/-- Settles O10: one edge for the delivery, induction on the number of edges for the wait. -/
theorem deliverOrHoldTheResponse : Obligations.DeliverOrHoldTheResponse := by
  refine ⟨fun s rst st ready => step_deliver rst st ready, ?_⟩
  intro n s st held
  exact ⟨s.skip n, edges_hold n st held, s.sameUnit_skip n, rfl⟩

/-- Settles O13: under equal inputs the two units make the same transition (`SameUnit.clockEdge`). -/
theorem nextElementsDependOnElementsAndInputs : Obligations.NextElementsDependOnElementsAndInputs := by
  intro s t s' same pins hs
  obtain ⟨u, hu, rfl⟩ := clockEdge_of_step hs
  obtain ⟨u', hu', same'⟩ := same.clockEdge hu
  exact ⟨u'.advance, step_of_clockEdge (pins ▸ hu'), same'.advance⟩

/-- Settles O17: read off the invariant, which every state of a run has. -/
theorem runsAnswerEveryRequestInOrder : Obligations.RunsAnswerEveryRequestInOrder := by
  intro s run
  have inv := run.inv
  refine ⟨?_, ?_, by simp [inv.channel]⟩
  · cases st : s.st <;> simp [State.outputs, st]
  · intro valid
    have done : s.st = .done := of_decide_eq_true valid
    have owed : outstanding s.log = some (some s.request) := by
      rw [inv.channel, State.held_of_ne_idle (by simp [done])]
    exact ⟨s.request, owed, inv.answered done⟩

/-- Settles O18: the accept edge, the counting edges and the completing edge. -/
theorem completesAfterItsLatency : Obligations.CompletesAfterItsLatency := by
  intro s st valid rst
  refine ⟨fun k hk => edges_accept_busy st valid hk fun j hj => rst j (hj.trans hk.le), ?_⟩
  exact ⟨s.served, edges_accept_complete st valid rst, rfl, rfl, s.served_response, rfl⟩

/-- Settles O19: induction on the list of requests, each performed by `edges_hostEdges`. -/
theorem requestsAreServedInOrder : Obligations.RequestsAreServedInOrder := by
  intro rs
  induction rs with
  | nil =>
    intro s rest st script
    exact ⟨s, rfl, st, script, rfl, fun r hr => nomatch hr⟩
  | cons r rs ih =>
    intro s rest st script
    rw [List.flatMap_cons, List.append_assoc] at script
    obtain ⟨u, first, ust, uscript, ulog, uresponse⟩ := edges_hostEdges st script
    obtain ⟨t, others, tst, tscript, tlog, tresponse⟩ := ih u rest ust uscript
    refine ⟨t, ?_, tst, tscript, ?_, ?_⟩
    · rw [List.map_cons, List.sum_cons, edges_add _ first, others]
    · simp [tlog, ulog]
    · intro last hlast
      cases rs with
      | nil =>
        cases others
        cases hlast
        exact uresponse
      | cons r' rs => exact tresponse last hlast

/-- Settles O20: the pair is `resultOf`. -/
theorem resultDependsOnTheRequestAlone : Obligations.ResultDependsOnTheRequestAlone :=
  fun i => ⟨resultOf i, exec_eq_complete i⟩

/-- Settles O4: the request word of the latches decodes to the operation in them, which the last edge completes. -/
theorem stepRunsTheLatchedOperation : Obligations.StepRunsTheLatchedOperation := by
  intro s rst st last
  rw [step_complete rst st last, decodeRequest_word, exec_eq_complete]
  rfl

/-- Settles O5: the placed request is `BUSY` with no edge left to wait, and the edge placed with it does not reset. -/
theorem placedWordRunsNext : Obligations.PlacedWordRunsNext := by
  intro s nbits w i hi
  have latched : (s.withFetchWord nbits w).instr = i :=
    (instr_withFetchWord s nbits w).trans (decodeRequest_of_decodeTableWord hi)
  have completes := step_complete (s := s.withFetchWord nbits w) rfl rfl rfl
  rw [latched] at completes
  refine ⟨?_, _, completes, rfl, rfl⟩
  rw [completes, exec_eq_complete]
  rfl

/-- Settles O8: of the inputs only the accepting edge reads the payload. -/
theorem acceptSamplesThePayload : Obligations.AcceptSamplesThePayload := by
  refine ⟨fun s rst st valid => step_accept rst st valid, ?_⟩
  intro s p q rst valid ready noAccept
  cases hp : p.rst with
  | true => rw [clockEdge_reset s hp, clockEdge_reset s (rst ▸ hp)]
  | false =>
    have hq : q.rst = false := rst ▸ hp
    cases st : s.st with
    | idle =>
      have noRequest : p.reqValid = false := by simpa [st, hp] using noAccept
      simp [clockEdge_idle hp st, clockEdge_idle hq st, ← valid, noRequest]
    | busy => rw [clockEdge_busy hp st, clockEdge_busy hq st]
    | done => rw [clockEdge_done hp st, clockEdge_done hq st, ready]

/-- Settles O9: the counting edge, and the rule of an edge in `BUSY`, which names no input but `rst`. -/
theorem busyCountsDown : Obligations.BusyCountsDown := by
  refine ⟨fun s rst st wait => step_count rst st wait, ?_⟩
  intro s p q st rst
  cases hp : p.rst with
  | true => rw [clockEdge_reset s hp, clockEdge_reset s (rst ▸ hp)]
  | false => rw [clockEdge_busy hp st, clockEdge_busy (rst ▸ hp) st]

/-- Settles O11: the edge of an idle unit that accepts nothing. -/
theorem idleUnitWaits : Obligations.IdleUnitWaits := fun _ rst st valid => step_idle_wait rst st valid

/-- Settles O12: the outputs by their definition, the response ports outside `DONE` by the invariant. -/
theorem outputsFollowTheState : Obligations.OutputsFollowTheState := by
  refine ⟨fun s => ⟨decide_eq_true_iff, decide_eq_true_iff, rfl, rfl⟩, fun _ _ same => same.outputs_eq, ?_⟩
  intro s inv valid
  exact inv.shown (of_decide_eq_false valid)

/-- Settles O15: nothing is owed and nothing was shown at reset. -/
theorem resetStateHasInvariant : Obligations.ResetStateHasInvariant := State.reset_inv []

end Sys2Proof.Proofs
end

section
/-! The rules of 30_encoding.md: which operation and fields a request word stands for, how a result is placed and with
which statuses, and that a binary64 is determined by its fields and a finite one by its value. The obligations of the
file follow. -/

namespace Sys2Proof.Machine

/-! ## The decoder on the three fields -/

/-- An operation is selected by its own code and fields. -/
@[simp] theorem decodeFields_fields (i : Instr) : decodeFields i.opCode i.fieldA i.fieldB = i := by
  cases i <;> rfl

/-- The row that a code selects carries that code (R61); the last arm is the code 7 and no other. -/
@[simp] theorem opCode_decodeFields (op : OpCode) (a : Dword) (b : Word) : (decodeFields op a b).opCode = op := by
  have bound : op.toNat < 8 := op.isLt
  apply BitVec.eq_of_toNat_eq
  unfold decodeFields
  interval_cases op.toNat <;> rfl

@[simp] theorem fieldA_decodeFields (op : OpCode) (a : Dword) (b : Word) : (decodeFields op a b).fieldA = a := by
  unfold decodeFields
  split <;> rfl

@[simp] theorem fieldB_decodeFields (op : OpCode) (a : Dword) (b : Word) : (decodeFields op a b).fieldB = b := by
  unfold decodeFields
  split <;> rfl

/-! ## The fields of a request word -/

/-- A request word is its three fields and nothing else (R60). -/
theorem append_reqFields (w : ReqWord) : reqOpField w ++ reqAField w ++ reqBField w = w := by
  apply BitVec.eq_of_getLsbD_eq
  intro k hk
  rw [getLsbD_request]
  split
  · simp [reqBField, *]
  · split
    · have at_a : 32 + (k - 32) = k := by omega
      simp [reqAField, *]
    · have in_op : k - 32 - 64 < 3 := by omega
      have at_op : 96 + (k - 32 - 64) = k := by omega
      simp [reqOpField, in_op, at_op]

theorem decodeRequest_encode (i : Instr) : decodeRequest (encode i) = i := by
  obtain ⟨op, a, b⟩ := Laws.EncodeFields.of_append i
  rw [decodeRequest, op, a, b, decodeFields_fields]

theorem encode_decodeRequest (w : ReqWord) : encode (decodeRequest w) = w := by
  rw [encode, decodeRequest, opCode_decodeFields, fieldA_decodeFields, fieldB_decodeFields, append_reqFields]

theorem reqOpField_toNat {n : Nat} (h : n < 2 ^ 99) : (reqOpField (BitVec.ofNat 99 n)).toNat = n / 2 ^ 96 := by
  rw [reqOpField, BitVec.extractLsb'_toNat, BitVec.toNat_ofNat, Nat.shiftRight_eq_div_pow]
  omega

theorem reqAField_toNat {n : Nat} (h : n < 2 ^ 99) :
    (reqAField (BitVec.ofNat 99 n)).toNat = n / 2 ^ 32 % 2 ^ 64 := by
  rw [reqAField, BitVec.extractLsb'_toNat, BitVec.toNat_ofNat, Nat.shiftRight_eq_div_pow, Nat.mod_eq_of_lt h]

theorem reqBField_toNat {n : Nat} (h : n < 2 ^ 99) : (reqBField (BitVec.ofNat 99 n)).toNat = n % 2 ^ 32 := by
  rw [reqBField, BitVec.extractLsb'_toNat, BitVec.toNat_ofNat, Nat.shiftRight_zero, Nat.mod_eq_of_lt h]

/-- The mask of bits 98:96 keeps the code of a request word, in its place (R61). -/
theorem and_opMask {n : Nat} (h : n < 2 ^ 99) : n &&& 0x7000000000000000000000000 = n / 2 ^ 96 * 2 ^ 96 := by
  have mask : 0x7000000000000000000000000 = (2 ^ 3 - 1) * 2 ^ 96 := by norm_num
  apply Nat.eq_of_testBit_eq
  intro k
  rw [mask, Nat.testBit_and, Nat.testBit_mul_two_pow, Nat.testBit_mul_two_pow, Nat.testBit_two_pow_sub_one,
    Nat.testBit_div_two_pow]
  by_cases low : 96 ≤ k
  · have here : k - 96 + 96 = k := by omega
    rw [here]
    by_cases high : k < 99
    · simp [low, (by omega : k - 96 < 3)]
    · have clear : n.testBit k = false :=
        Nat.testBit_lt_two_pow (h.trans_le (Nat.pow_le_pow_right (by decide) (by omega)))
      simp [clear]
  · simp [low]

/-! ## Results -/

/-- An operation's outcome depends on the operation through its result pair alone (R31). -/
theorem exec_congr {i j : Instr} (h : resultOf i = resultOf j) (s : State) : exec i s = exec j s := by
  rw [exec_eq_complete, exec_eq_complete, h]

/-- A placed 32-bit result stands under 32 zero bits (R65). -/
@[simp] theorem extractLsb'_wordResult (r : Word) (st : Status) : (wordResult r st).data.extractLsb' 32 32 = 0 := by
  ext i hi
  simp [wordResult]

theorem raise_eq_wordResult (e : OpError) : raise e = wordResult 0 e.status := rfl

/-- What FROM_DOUBLE can answer (R92). -/
theorem fromDoubleResult_cases (d : Dword) :
    (∃ v, fromDoubleResult d = clampedResult v) ∨ (∃ r, fromDoubleResult d = wordResult r .saturated) ∨
    fromDoubleResult d = wordResult Config.nanResult .nanOperand := by
  unfold fromDoubleResult
  cases dblClass d with
  | nan => exact .inr (.inr rfl)
  | infinity => exact .inr (.inl ⟨_, rfl⟩)
  | zero => exact .inl ⟨_, rfl⟩
  | subnormal => exact .inl ⟨_, rfl⟩
  | normal => exact .inl ⟨_, rfl⟩

/-- What DIV can answer (R110, R113). -/
theorem divResult_cases (a b : Word) : divResult a b = raise .divByZero ∨ ∃ v, divResult a b = clampedResult v := by
  unfold divResult
  split
  · exact .inl rfl
  · exact .inr ⟨_, rfl⟩

@[simp] theorem extractLsb'_clampedResult (v : Int) : (clampedResult v).data.extractLsb' 32 32 = 0 :=
  extractLsb'_wordResult ..

theorem extractLsb'_fromDoubleResult (d : Dword) : (fromDoubleResult d).data.extractLsb' 32 32 = 0 := by
  obtain ⟨v, h⟩ | ⟨r, h⟩ | h := fromDoubleResult_cases d <;> rw [h]
  · exact extractLsb'_clampedResult v
  · exact extractLsb'_wordResult ..
  · exact extractLsb'_wordResult ..

theorem extractLsb'_divResult (a b : Word) : (divResult a b).data.extractLsb' 32 32 = 0 := by
  obtain h | ⟨v, h⟩ := divResult_cases a b <;> rw [h]
  · rw [raise_eq_wordResult, extractLsb'_wordResult]
  · exact extractLsb'_clampedResult v

/-- A clamped value is `OK` or `SATURATED` (R85). -/
theorem clampedResult_status_mem (v : Int) : (clampedResult v).status.code ∈ [0b000#3, 0b001#3] := by
  obtain ⟨_, h⟩ | ⟨_, h⟩ | ⟨_, _, h⟩ := sat32_cases v <;> rw [clampedResult_status, h]
  · exact .tail _ (.head _)
  · exact .tail _ (.head _)
  · exact .head _

theorem fromDoubleResult_status_mem (d : Dword) :
    (fromDoubleResult d).status.code ∈ [0b000#3, 0b001#3, 0b010#3] := by
  obtain ⟨v, h⟩ | ⟨r, h⟩ | h := fromDoubleResult_cases d <;> rw [h]
  · exact List.mem_append_left [_] (clampedResult_status_mem v)
  · exact .tail _ (.head _)
  · exact .tail _ (.tail _ (.head _))

theorem divResult_status_mem (a b : Word) : (divResult a b).status.code ∈ [0b000#3, 0b001#3, 0b100#3] := by
  obtain h | ⟨v, h⟩ := divResult_cases a b <;> rw [h]
  · exact .tail _ (.tail _ (.head _))
  · exact List.mem_append_left [_] (clampedResult_status_mem v)

/-! ## The fields and the value of a binary64 -/

/-- The three fields of R70 make up the whole pattern. -/
theorem dbl_ext {d e : Dword} (sign : dblSign d = dblSign e) (exponent : dblExponent d = dblExponent e)
    (fraction : dblFraction d = dblFraction e) : d = e := by
  have high := BitVec.eq_of_toNat_eq exponent
  have low := BitVec.eq_of_toNat_eq fraction
  apply BitVec.eq_of_getLsbD_eq
  intro k hk
  by_cases isLow : k < 52
  · simpa [isLow] using congrArg (·.getLsbD k) low
  · by_cases isHigh : k < 63
    · have in_field : k - 52 < 11 := by omega
      have at_bit : 52 + (k - 52) = k := by omega
      simpa [in_field, at_bit] using congrArg (·.getLsbD (k - 52)) high
    · obtain rfl : k = 63 := by omega
      exact sign

theorem dblFraction_lt (d : Dword) : dblFraction d < 2 ^ 52 := BitVec.isLt _

/-- Minus zero is the one pattern with a sign, exponent 0 and fraction 0 (R71). -/
theorem eq_minusZero {d : Dword} (sign : dblSign d = true) (exponent : dblExponent d = 0) (fraction : dblFraction d = 0) :
    d = 0x8000000000000000 :=
  dbl_ext (sign.trans (by decide)) (exponent.trans (by decide)) (fraction.trans (by decide))

/-- The magnitude of a finite binary64 in units of the smallest one, `2^-1074`, as a function of exponent and fraction. -/
def dblUnits (e f : Nat) : Nat := if e = 0 then f else (2 ^ 52 + f) * 2 ^ (e - 1)

theorem dblUnits_zero (f : Nat) : dblUnits 0 f = f := if_pos rfl

theorem dblUnits_succ (e f : Nat) : dblUnits (e + 1) f = (2 ^ 52 + f) * 2 ^ e := if_neg e.succ_ne_zero

/-- The signed magnitude of a finite binary64 in units of `2^-1074`. -/
def dblSignedUnits (d : Dword) : Int :=
  (if dblSign d then -1 else 1) * dblUnits (dblExponent d) (dblFraction d)

/-- The value of R71 counted in units of `2^-1074`. -/
theorem dblValue_eq_units {d : Dword} {x : ℚ} (h : dblValue d = some x) :
    x = (dblSignedUnits d : ℚ) * 2 ^ (-1074 : ℤ) := by
  simp only [dblValue] at h
  have sign : ((if dblSign d then -1 else 1 : ℤ) : ℚ) = if dblSign d then -1 else 1 := by split <;> norm_num
  rw [dblSignedUnits, Int.cast_mul, sign, Int.cast_natCast]
  split at h
  · nomatch h
  split at h
  case isTrue zero =>
    rw [← Option.some.inj h, zero, dblUnits_zero]
  case isFalse nonzero =>
    obtain ⟨k, hk⟩ := Nat.exists_eq_succ_of_ne_zero nonzero
    have scale : (2 : ℚ) ^ ((k + 1 : ℕ) - 1075 : ℤ) = 2 ^ k * 2 ^ (-1074 : ℤ) := by
      rw [← zpow_natCast, ← zpow_add₀ two_ne_zero]
      congr 1
      omega
    rw [← Option.some.inj h, hk, scale, dblUnits_succ]
    generalize (2 : ℚ) ^ (-1074 : ℤ) = unit
    push_cast
    ring

/-- A smaller exponent means fewer units, whatever the fractions. -/
theorem dblUnits_lt {e e' f : Nat} (f' : Nat) (he : e < e') (hf : f < 2 ^ 52) : dblUnits e f < dblUnits e' f' := by
  obtain ⟨m, rfl⟩ := Nat.exists_eq_add_of_lt he
  rw [dblUnits_succ]
  cases e with
  | zero =>
    calc dblUnits 0 f < 2 ^ 52 * 1 := by rw [dblUnits_zero]; exact hf
      _ ≤ (2 ^ 52 + f') * 2 ^ (0 + m) := Nat.mul_le_mul (Nat.le_add_right ..) Nat.one_le_two_pow
  | succ e =>
    calc dblUnits (e + 1) f = (2 ^ 52 + f) * 2 ^ e := dblUnits_succ e f
      _ < (2 ^ 52 + 2 ^ 52) * 2 ^ e := Nat.mul_lt_mul_of_pos_right (by omega) (Nat.two_pow_pos e)
      _ = 2 ^ 52 * 2 ^ (e + 1) := by ring
      _ ≤ (2 ^ 52 + f') * 2 ^ (e + 1 + m) :=
        Nat.mul_le_mul (Nat.le_add_right ..) (Nat.pow_le_pow_right (by decide) (Nat.le_add_right ..))

/-- The units determine exponent and fraction. -/
theorem dblUnits_inj {e e' f f' : Nat} (hf : f < 2 ^ 52) (hf' : f' < 2 ^ 52) (h : dblUnits e f = dblUnits e' f') :
    e = e' ∧ f = f' := by
  obtain lt | rfl | gt := Nat.lt_trichotomy e e'
  · exact absurd h (dblUnits_lt f' lt hf).ne
  · refine ⟨rfl, ?_⟩
    cases e with
    | zero => exact h
    | succ e =>
      rw [dblUnits_succ, dblUnits_succ] at h
      exact Nat.add_left_cancel (Nat.eq_of_mul_eq_mul_right (Nat.two_pow_pos e) h)
  · exact absurd h (dblUnits_lt f gt hf').ne'

/-- Only a zero has no units. -/
theorem dblUnits_eq_zero {e f : Nat} (hf : f < 2 ^ 52) (h : dblUnits e f = 0) : e = 0 ∧ f = 0 :=
  dblUnits_inj hf (Nat.two_pow_pos 52) h

theorem natAbs_dblSignedUnits (d : Dword) :
    (dblSignedUnits d).natAbs = dblUnits (dblExponent d) (dblFraction d) := by
  unfold dblSignedUnits
  split <;> simp

/-- The signed units show the sign of every pattern but minus zero. -/
theorem dblSignedUnits_neg_iff {d : Dword} (hd : d ≠ 0x8000000000000000) : dblSignedUnits d < 0 ↔ dblSign d = true := by
  cases sign : dblSign d with
  | false => simp [dblSignedUnits, sign]
  | true =>
    have units : dblUnits (dblExponent d) (dblFraction d) ≠ 0 := by
      intro none
      obtain ⟨exponent, fraction⟩ := dblUnits_eq_zero (dblFraction_lt d) none
      exact hd (eq_minusZero sign exponent fraction)
    simpa [dblSignedUnits, sign] using Nat.pos_of_ne_zero units

/-- Two patterns with the same signed units are the same, minus zero aside. -/
theorem dblSignedUnits_inj {d e : Dword} (hd : d ≠ 0x8000000000000000) (he : e ≠ 0x8000000000000000)
    (h : dblSignedUnits d = dblSignedUnits e) : d = e := by
  have sign : dblSign d = dblSign e := by
    rw [Bool.eq_iff_iff, ← dblSignedUnits_neg_iff hd, ← dblSignedUnits_neg_iff he, h]
  have units : dblUnits (dblExponent d) (dblFraction d) = dblUnits (dblExponent e) (dblFraction e) := by
    rw [← natAbs_dblSignedUnits, ← natAbs_dblSignedUnits, h]
  obtain ⟨exponent, fraction⟩ := dblUnits_inj (dblFraction_lt d) (dblFraction_lt e) units
  exact dbl_ext sign exponent fraction

end Sys2Proof.Machine
end

section
/-! The obligations of 30_encoding.md. -/

namespace Sys2Proof.Proofs

open Sys2Proof.Machine

/-- Settles O1: an operation is its code and two fields, and a request word is the three of them and nothing else. -/
theorem decodeEncodeInverse : Obligations.DecodeEncodeInverse := ⟨decodeRequest_encode, encode_decodeRequest⟩

/-- Settles O2: the fields of the word by their bit positions, and the mask by its bits. -/
theorem maskAndMatchSelectTheRow : Obligations.MaskAndMatchSelectTheRow := by
  intro n
  refine ⟨fun h => if_neg h.not_gt, fun h => ⟨_, if_pos h, ?_, ?_, ?_⟩⟩
  · rw [decodeRequest, opCode_decodeFields, reqOpField_toNat h, and_opMask h]
  · rw [decodeRequest, fieldA_decodeFields, reqAField_toNat h]
  · rw [decodeRequest, fieldB_decodeFields, reqBField_toNat h]

/-- Settles O21: the result pair of each operation names only the operand bits that R62 lists as used. -/
theorem ignoredOperandBitsHaveNoEffect : Obligations.IgnoredOperandBitsHaveNoEffect := by
  intro a a' b b' s
  refine ⟨fun same => ?_, exec_congr rfl s, exec_congr rfl s, exec_congr rfl s⟩
  have low : lowWord a = lowWord a' := same
  refine ⟨exec_congr ?_ s, exec_congr ?_ s, exec_congr ?_ s, exec_congr ?_ s, exec_congr ?_ s⟩
  · exact congrArg fromIntResult low
  · exact congrArg toIntResult low
  · exact congrArg toDoubleResult low
  · exact congrArg (mulResult · b) low
  · exact congrArg (divResult · b) low

/-- Settles O22: the five results are placed words, and no operation answers an error with data. -/
theorem resultPlacement : Obligations.ResultPlacement := by
  refine fun a b s => ⟨fun i hi => ⟨_, exec_eq_complete i s, ?_⟩,
    fun i => ⟨_, exec_eq_complete i s, resultOf_errorDataZero i⟩⟩
  simp only [List.mem_cons, List.not_mem_nil, or_false] at hi
  obtain rfl | rfl | rfl | rfl | rfl := hi
  · exact extractLsb'_clampedResult _
  · exact extractLsb'_wordResult _ .ok
  · exact extractLsb'_fromDoubleResult a
  · exact extractLsb'_clampedResult _
  · exact extractLsb'_divResult _ b

/-- Settles O23: the status of each row's result pair. -/
theorem statusesOfEachOperation : Obligations.StatusesOfEachOperation := fun a b s =>
  ⟨⟨_, exec_fromInt a b s, clampedResult_status_mem _⟩,
    ⟨_, exec_toInt a b s, rfl⟩,
    ⟨_, exec_fromDouble a b s, fromDoubleResult_status_mem a⟩,
    ⟨_, exec_toDouble a b s, rfl⟩,
    ⟨_, exec_mul a b s, clampedResult_status_mem _⟩,
    ⟨_, exec_div a b s, divResult_status_mem _ b⟩,
    ⟨_, exec_op6 a b s, rfl⟩,
    ⟨_, exec_op7 a b s, rfl⟩⟩

/-- Settles O29: the value in units of `2^-1074` is an integer that determines sign, exponent and fraction. -/
theorem valueDeterminesTheDouble : Obligations.ValueDeterminesTheDouble := by
  intro d e x hd he plusD plusE
  have same : (dblSignedUnits d : ℚ) * 2 ^ (-1074 : ℤ) = dblSignedUnits e * 2 ^ (-1074 : ℤ) :=
    (dblValue_eq_units hd).symm.trans (dblValue_eq_units he)
  exact dblSignedUnits_inj plusD plusE (Int.cast_injective (mul_right_cancel₀ (by positivity) same))

/-- Settles O3: the decoder evaluated on the eight words. -/
theorem writtenWordsDecode : Obligations.WrittenWordsDecode := by
  unfold Obligations.WrittenWordsDecode
  decide

/-- Settles O55: the completion of the two codes, and the accepting edge of an idle unit, which asks nothing of the code. -/
theorem reservedCodesAnswerIllegalOp : Obligations.ReservedCodesAnswerIllegalOp :=
  ⟨fun a b s => ⟨exec_op6 a b s, exec_op7 a b s⟩,
    fun _ rst st valid _ => ⟨_, step_accept rst st valid, rfl, rfl, rfl, rfl⟩⟩

end Sys2Proof.Proofs
end

section
/-! The rules of 40_rounding_saturation.md: `rhafz` from zero on and its sign symmetry, from which its other properties
follow; the integer and the bit form of the rounded division; and the clamp. The obligations of the file follow. -/

namespace Sys2Proof.Machine

/-! ## Round half away from zero, on rationals -/

/-- From zero on `rhafz` is Mathlib's `round`, whose ties go up (R80). -/
theorem rhafz_of_nonneg {x : ℚ} (hx : 0 ≤ x) : rhafz x = round x := by
  obtain rfl | pos := hx.eq_or_lt
  · simp [rhafz]
  · rw [rhafz, sign_pos pos, abs_of_pos pos, round_eq]
    exact one_mul _

/-- `rhafz` is odd (R84 (c)). -/
@[simp] theorem rhafz_neg (x : ℚ) : rhafz (-x) = -rhafz x := by
  simp [rhafz, Left.sign_neg]

/-- `rhafz` fixes the integers (R84 (d)). -/
@[simp] theorem rhafz_intCast (k : ℤ) : rhafz (k : ℚ) = k := by
  obtain h | h := le_total 0 k
  · rw [rhafz_of_nonneg (by exact_mod_cast h), round_intCast]
  · have nonneg : (0 : ℚ) ≤ ((-k : ℤ) : ℚ) := by exact_mod_cast neg_nonneg.2 h
    have opposite : rhafz ((-k : ℤ) : ℚ) = -k := by rw [rhafz_of_nonneg nonneg, round_intCast]
    rwa [Int.cast_neg, rhafz_neg, neg_inj] at opposite

/-- `rhafz` is a nearest integer (R80). -/
theorem abs_rhafz_sub_le (x : ℚ) (k : ℤ) : |(rhafz x : ℚ) - x| ≤ |(k : ℚ) - x| := by
  obtain h | h := le_total 0 x
  · rw [rhafz_of_nonneg h, abs_sub_comm, abs_sub_comm (k : ℚ)]
    exact round_le x k
  · have opposite := round_le (-x) (-k)
    rw [← rhafz_of_nonneg (neg_nonneg.2 h), rhafz_neg, Int.cast_neg, Int.cast_neg, neg_sub_neg, neg_sub_neg] at opposite
    exact opposite

/-- From zero on the result is never half a unit too small: a tie goes up. -/
theorem sub_half_lt_rhafz_of_nonneg {x : ℚ} (hx : 0 ≤ x) : x - 1 / 2 < rhafz x := by
  rw [rhafz_of_nonneg hx, round_eq]
  linarith [Int.lt_floor_add_one (x + 1 / 2)]

theorem abs_rhafz_sub_le_half (x : ℚ) : |(rhafz x : ℚ) - x| ≤ 1 / 2 :=
  calc |(rhafz x : ℚ) - x| ≤ |(round x : ℚ) - x| := abs_rhafz_sub_le x (round x)
    _ = |x - round x| := abs_sub_comm _ _
    _ ≤ 1 / 2 := abs_sub_round x

/-- A tie goes to the larger magnitude (R80). -/
theorem abs_lt_abs_rhafz_of_tie {x : ℚ} (tie : |(rhafz x : ℚ) - x| = 1 / 2) : |x| < |(rhafz x : ℚ)| := by
  have of_nonneg {y : ℚ} (hy : 0 ≤ y) (tie : |(rhafz y : ℚ) - y| = 1 / 2) : |y| < |(rhafz y : ℚ)| := by
    have above := sub_half_lt_rhafz_of_nonneg hy
    have up : (rhafz y : ℚ) - y = 1 / 2 := by
      obtain up | down := (abs_eq one_half_pos.le).1 tie
      · exact up
      · linarith
    rw [abs_of_nonneg hy]
    exact lt_of_lt_of_le (by linarith) (le_abs_self _)
  obtain h | h := le_total 0 x
  · exact of_nonneg h tie
  · have opposite := of_nonneg (neg_nonneg.2 h)
    rw [rhafz_neg, Int.cast_neg, neg_sub_neg, abs_sub_comm, abs_neg, abs_neg] at opposite
    exact opposite tie

theorem rhafz_nonneg {x : ℚ} (hx : 0 ≤ x) : 0 ≤ rhafz x := by
  rw [rhafz_of_nonneg hx, round_eq]
  positivity

/-- `rhafz` is monotone (R84 (b)): an odd function is when it is so from zero on. -/
theorem rhafz_mono : Monotone rhafz := by
  apply monotone_of_odd_of_monotoneOn_nonneg rhafz_neg
  intro x hx y hy hxy
  rw [rhafz_of_nonneg hx, rhafz_of_nonneg hy, round_eq, round_eq]
  gcongr

/-- `rhafz` is additive over an integer of the same sign (R84 (d)). -/
theorem rhafz_intCast_add {k : ℤ} {x : ℚ} (same : 0 ≤ (k : ℚ) * x) : rhafz (k + x) = k + rhafz x := by
  have of_nonneg {j : ℤ} {y : ℚ} (hj : 0 ≤ j) (hy : 0 ≤ y) : rhafz (j + y) = j + rhafz y := by
    rw [rhafz_of_nonneg hy, rhafz_of_nonneg (by positivity), round_intCast_add]
  obtain ⟨hk, hx⟩ | ⟨hk, hx⟩ := mul_nonneg_iff.1 same
  · exact of_nonneg (by exact_mod_cast hk) hx
  · have opposite := of_nonneg (neg_nonneg.2 (Int.cast_nonpos.1 hk)) (neg_nonneg.2 hx)
    rw [Int.cast_neg, ← neg_add, rhafz_neg, rhafz_neg, ← neg_add] at opposite
    exact neg_injective opposite

/-- Rounding never falls short of truncation in magnitude (R84 (e)). -/
theorem abs_trunc_le_abs_rhafz (x : ℚ) : |if 0 ≤ x then ⌊x⌋ else -⌊-x⌋| ≤ |rhafz x| := by
  have of_nonneg {y : ℚ} (hy : 0 ≤ y) : |⌊y⌋| ≤ |rhafz y| := by
    rw [abs_of_nonneg (Int.floor_nonneg.2 hy), abs_of_nonneg (rhafz_nonneg hy), rhafz_of_nonneg hy, round_eq]
    exact Int.floor_mono (by linarith)
  split
  case isTrue h => exact of_nonneg h
  case isFalse h => simpa using of_nonneg (neg_nonneg.2 (not_le.1 h).le)

theorem abs_rhafz_le (x : ℚ) : ((|rhafz x| : ℤ) : ℚ) ≤ |x| + 1 / 2 := by
  rw [Int.cast_abs]
  linarith [abs_sub_abs_le_abs_sub (rhafz x : ℚ) x, abs_rhafz_sub_le_half x]

/-! ## The rounded division on integers -/

/-- The rule with the direction of the increment as a product of signs (R81). A zero dividend, whose product is zero, has
no remainder to round. -/
theorem rhafzDiv_eq_tdiv_add (n : ℤ) {d : ℤ} (hd : d ≠ 0) :
    rhafzDiv n d = n.tdiv d + if d.natAbs ≤ 2 * (n.tmod d).natAbs then n.sign * d.sign else 0 := by
  have remainder : n - n.tdiv d * d = n.tmod d := by rw [Int.tmod_def, mul_comm]
  simp only [rhafzDiv, remainder]
  split
  case isFalse => rw [add_zero]
  case isTrue half =>
    have hn : n ≠ 0 := by
      rintro rfl
      simp [hd] at half
    obtain hn | hn := hn.lt_or_gt <;> obtain hd | hd := hd.lt_or_gt <;>
      simp [hn, hd, hn.not_gt, hd.not_gt, Int.sign_eq_one_of_pos, Int.sign_eq_neg_one_of_neg, sub_eq_add_neg]

/-- Negating the dividend negates the quotient (R82): truncated quotient and direction turn round. -/
theorem rhafzDiv_neg_left (n : ℤ) {d : ℤ} (hd : d ≠ 0) : rhafzDiv (-n) d = -rhafzDiv n d := by
  rw [rhafzDiv_eq_tdiv_add _ hd, rhafzDiv_eq_tdiv_add _ hd, Int.neg_tdiv, Int.neg_tmod, Int.natAbs_neg, Int.sign_neg]
  split <;> ring

/-- Negating the divisor negates the quotient (R82): truncated quotient and direction turn round. -/
theorem rhafzDiv_neg_right (n : ℤ) {d : ℤ} (hd : d ≠ 0) : rhafzDiv n (-d) = -rhafzDiv n d := by
  rw [rhafzDiv_eq_tdiv_add _ (neg_ne_zero.2 hd), rhafzDiv_eq_tdiv_add _ hd, Int.tdiv_neg, Int.tmod_neg, Int.natAbs_neg,
    Int.sign_neg]
  split <;> ring

/-- On a dividend that is not negative and a positive divisor the remainder alone decides (R81). -/
theorem rhafzDiv_of_nonneg {n d : ℤ} (hn : 0 ≤ n) (hd : 0 < d) :
    rhafzDiv n d = if d ≤ 2 * (n % d) then n / d + 1 else n / d := by
  have remainder : n - n / d * d = n % d := by rw [Int.emod_def, mul_comm]
  have nonneg : 0 ≤ n % d := Int.emod_nonneg n hd.ne'
  have magnitudes : d.natAbs ≤ 2 * (n % d).natAbs ↔ d ≤ 2 * (n % d) := by omega
  simp [rhafzDiv, Int.tdiv_eq_ediv_of_nonneg hn, remainder, magnitudes, hn.not_gt, hd.not_gt]

/-- The equality of R81 on magnitudes: the exact quotient lies in the half-open unit interval around the
integer. -/
theorem rhafzDiv_eq_rhafz_of_nonneg {n d : ℤ} (hn : 0 ≤ n) (hd : 0 < d) : rhafzDiv n d = rhafz ((n : ℚ) / d) := by
  have pos : (0 : ℚ) < d := by exact_mod_cast hd
  have split_n : (n : ℚ) = d * (n / d : ℤ) + (n % d : ℤ) := by exact_mod_cast (Int.mul_ediv_add_emod n d).symm
  have low : (0 : ℚ) ≤ (n % d : ℤ) := by exact_mod_cast Int.emod_nonneg n hd.ne'
  have high : ((n % d : ℤ) : ℚ) < d := by exact_mod_cast Int.emod_lt_of_pos n hd
  symm
  rw [rhafz_of_nonneg (by positivity), rhafzDiv_of_nonneg hn hd, round_eq_iff, Set.mem_Ico, le_div_iff₀ pos,
    div_lt_iff₀ pos]
  split
  case isTrue half =>
    have half : (d : ℚ) ≤ 2 * (n % d : ℤ) := by exact_mod_cast half
    push_cast
    constructor <;> linarith
  case isFalse half =>
    have half : 2 * ((n % d : ℤ) : ℚ) < d := by exact_mod_cast not_le.1 half
    constructor <;> linarith

/-- The integer algorithm of R81 rounds the exact quotient. -/
theorem rhafzDiv_eq_rhafz (n : ℤ) {d : ℤ} (hd : d ≠ 0) : rhafzDiv n d = rhafz ((n : ℚ) / d) := by
  have of_pos (n : ℤ) {d : ℤ} (hd : 0 < d) : rhafzDiv n d = rhafz ((n : ℚ) / d) := by
    obtain hn | hn := le_total 0 n
    · exact rhafzDiv_eq_rhafz_of_nonneg hn hd
    · have opposite := rhafzDiv_eq_rhafz_of_nonneg (neg_nonneg.2 hn) hd
      rw [rhafzDiv_neg_left n hd.ne', Int.cast_neg, neg_div, rhafz_neg] at opposite
      exact neg_injective opposite
  obtain neg | pos := hd.lt_or_gt
  · have opposite := of_pos n (neg_pos.2 neg)
    rw [rhafzDiv_neg_right n hd, Int.cast_neg, div_neg, rhafz_neg] at opposite
    exact neg_injective opposite
  · exact of_pos n pos

/-! ## The rescale on bits -/

/-- The upper 48 bits are the floor of the division by 65536 (R83). -/
theorem toInt_extractLsb'_high (p : Dword) : (p.extractLsb' 16 48).toInt = p.toInt / 65536 := by
  have bound := p.isLt
  rw [BitVec.toInt_eq_toNat_cond, BitVec.toInt_eq_toNat_cond, BitVec.extractLsb'_toNat, Nat.shiftRight_eq_div_pow]
  split <;> split <;> omega

/-- The lower 16 bits are the remainder of that division (R83). -/
theorem toNat_extractLsb'_low (p : Dword) : ((p.extractLsb' 0 16).toNat : ℤ) = p.toInt % 65536 := by
  rw [BitVec.toInt_eq_toNat_cond, BitVec.extractLsb'_toNat, Nat.shiftRight_zero]
  split <;> omega

/-- The bit form on integers: floor and remainder, the tie going by the sign (R83). -/
theorem rescaleBits_eq (p : Dword) :
    rescaleBits p = p.toInt / 65536 +
      if p.toInt < 0 then if 32768 < p.toInt % 65536 then 1 else 0 else if 32768 ≤ p.toInt % 65536 then 1 else 0 := by
  have low := toNat_extractLsb'_low p
  simp only [rescaleBits, toInt_extractLsb'_high, BitVec.msb_eq_toInt, decide_eq_true_eq]
  split <;> split <;> split <;> omega

/-! ## The clamp -/

/-- The returned value is the integer clamped to the range of a Fix16 (R85). -/
theorem toInt_sat32 (v : ℤ) : (sat32 v).1.toInt = max (-2147483648) (min 2147483647 v) := by
  obtain ⟨above, h⟩ | ⟨below, h⟩ | ⟨lo, hi, h⟩ := sat32_cases v <;> rw [h]
  · have bound : fix16Max.toInt = 2147483647 := by decide
    rw [bound]
    omega
  · have bound : fix16Min.toInt = -2147483648 := by decide
    rw [bound]
    omega
  · have kept : (BitVec.ofInt 32 v).toInt = v := by
      rw [BitVec.toInt_ofInt, Int.bmod_def]
      split <;> omega
    rw [kept]
    omega

/-- Rounding commutes with the clamp, because it is monotone and the bounds are integers (R88). -/
theorem rhafz_clamp (x : ℚ) :
    rhafz (max (-2147483648) (min 2147483647 x)) = max (-2147483648) (min 2147483647 (rhafz x)) := by
  have lower : rhafz (-2147483648) = -2147483648 := by exact_mod_cast rhafz_intCast (-2147483648)
  have upper : rhafz 2147483647 = 2147483647 := by exact_mod_cast rhafz_intCast 2147483647
  rw [rhafz_mono.map_max, rhafz_mono.map_min, lower, upper]

end Sys2Proof.Machine
end

section
/-! The obligations of 40_rounding_saturation.md. -/

namespace Sys2Proof.Proofs

open Sys2Proof.Machine

/-- Settles O32: Mathlib's `round` from zero on, and the sign symmetry below. -/
theorem roundingIsNearestTiesAway : Obligations.RoundingIsNearestTiesAway := by
  refine fun x => ⟨abs_rhafz_sub_le_half x, abs_lt_abs_rhafz_of_tie, abs_rhafz_sub_le x, fun h => ?_, fun h => ?_⟩
  · rw [rhafz_of_nonneg h, round_eq]
  · rw [← round_eq, ← rhafz_of_nonneg (neg_nonneg.2 h.le), rhafz_neg, neg_neg]

/-- Settles O33: the equality on magnitudes, and both sides odd in dividend and divisor. -/
theorem integerRoundingIsHalfAway : Obligations.IntegerRoundingIsHalfAway := fun n _ hd => rhafzDiv_eq_rhafz n hd

/-- Settles O34: each property from zero on, and the sign symmetry below. -/
theorem roundingProperties : Obligations.RoundingProperties :=
  ⟨fun _ _ h => rhafz_mono h, fun _ _ same => rhafz_intCast_add same, rhafz_intCast,
    fun x => ⟨abs_trunc_le_abs_rhafz x, abs_rhafz_le x⟩⟩

/-- Settles O35: one negation at a time. -/
theorem roundingIsSymmetricInSign : Obligations.RoundingIsSymmetricInSign := fun n d hd =>
  ⟨rhafzDiv_neg_left n hd, rhafzDiv_neg_right n hd,
    by rw [rhafzDiv_neg_left n (neg_ne_zero.2 hd), rhafzDiv_neg_right n hd, neg_neg]⟩

/-- Settles O37: floor and remainder by 65536 on both sides; below zero, the quotient of the negated product. -/
theorem bitRescaleAgrees : Obligations.BitRescaleAgrees := by
  intro p
  rw [rescaleBits_eq]
  generalize p.toInt = n
  obtain hn | hn := le_or_gt 0 n
  · rw [rhafzDiv_of_nonneg hn (by decide), if_neg hn.not_gt]
    split <;> omega
  · rw [← neg_neg n, rhafzDiv_neg_left (-n) (by decide), rhafzDiv_of_nonneg (neg_nonneg.2 hn.le) (by decide), neg_neg,
      if_pos hn]
    split <;> split <;> omega

/-- Settles O38: the three answers of `sat32` and its value as a clamp. -/
theorem saturationClampsToTheNearestBound : Obligations.SaturationClampsToTheNearestBound := by
  refine fun v => ⟨fun above => if_pos above, fun below => ?_, fun lo hi => ⟨?_, ?_⟩, toInt_sat32 v⟩
  · have notAbove : ¬ 2147483647 < v := by omega
    exact (if_neg notAbove).trans (if_pos below)
  · rw [toInt_sat32, min_eq_right hi, max_eq_right lo]
  · rw [sat32_of_mem lo hi]

/-- Settles O39: rounding commutes with the clamp, and clamping twice is clamping once. -/
theorem clampingFirstGivesTheSameValue : Obligations.ClampingFirstGivesTheSameValue := by
  intro x
  apply BitVec.eq_of_toInt_eq
  rw [rhafz_clamp, toInt_sat32, toInt_sat32]
  omega

end Sys2Proof.Proofs
end

section
/-! The rules of 41_conversion.md: the integer conversions on the halves of a word, the magnitude of R93 as the rounding of
the units of a binary64, and the fields and the value of what R96 encodes. The obligations of the file follow. -/

namespace Sys2Proof.Machine

/-! ## Clamped and placed integers -/

theorem clampedResult_of_mem {v : ℤ} (lo : -2147483648 ≤ v) (hi : v ≤ 2147483647) :
    clampedResult v = wordResult (BitVec.ofInt 32 v) .ok := by
  rw [clampedResult, sat32_of_mem lo hi]

theorem clampedResult_of_gt {v : ℤ} (above : 2147483647 < v) : clampedResult v = wordResult fix16Max .saturated := by
  rw [clampedResult, sat32, if_pos above]

theorem clampedResult_of_lt {v : ℤ} (below : v < -2147483648) : clampedResult v = wordResult fix16Min .saturated := by
  have notAbove : ¬ 2147483647 < v := by omega
  rw [clampedResult, sat32, if_neg notAbove, if_pos below]

theorem le_toInt_word (x : Word) : -2147483648 ≤ x.toInt := BitVec.le_toInt x

theorem toInt_word_le (x : Word) : x.toInt ≤ 2147483647 := Int.le_of_lt_add_one BitVec.toInt_lt

/-- The clamp keeps every Fix16 (R85). -/
theorem clampedResult_toInt (x : Word) : clampedResult x.toInt = wordResult x .ok := by
  rw [clampedResult_of_mem (le_toInt_word x) (toInt_word_le x), BitVec.ofInt_toInt]

/-- `zext_64` writes 32 zero bits above the word (R65). -/
theorem wordResult_data (r : Word) (st : Status) : (wordResult r st).data = 0#32 ++ r :=
  BitVec.setWidth_eq_append (x := r) (w := 64) (by decide)

/-! ## The integer conversions -/

/-- Scaling by 2^16 moves the low half of a word to the top (R90). -/
theorem ofInt_mul_65536 (i : Word) : BitVec.ofInt 32 (i.toInt * 65536) = i.extractLsb' 0 16 ++ 0#16 := by
  have shift : BitVec.ofInt 32 (i.toInt * 65536) = i <<< 16 := by
    rw [BitVec.ofInt_mul, BitVec.ofInt_toInt, BitVec.shiftLeft_eq_mul_twoPow]
    rfl
  apply BitVec.eq_of_getLsbD_eq
  intro k hk
  have bit := BitVec.getLsbD_append (x := i.extractLsb' 0 16) (y := 0#16) (i := k)
  rw [shift]
  refine Eq.trans ?_ bit.symm
  by_cases low : k < 16
  · simp [low]
  · have inHalf : k - 16 < 16 := by omega
    have inWord : k - 16 < 32 := by omega
    simp [low, hk, inHalf, inWord]

/-- The upper half of a word is the floor of the division by 2^16 (R91). -/
theorem toInt_extractLsb'_upperHalf (x : Word) : (x.extractLsb' 16 16).toInt = x.toInt / 65536 := by
  have bound := x.isLt
  rw [BitVec.toInt_eq_toNat_cond, BitVec.toInt_eq_toNat_cond, BitVec.extractLsb'_toNat, Nat.shiftRight_eq_div_pow]
  split <;> split <;> omega

theorem toInt_signExtend_upperHalf (x : Word) : ((x.extractLsb' 16 16).signExtend 32).toInt = x.toInt / 65536 := by
  rw [BitVec.toInt_signExtend_of_le (by decide), toInt_extractLsb'_upperHalf]

/-- The arithmetic shift of R91 is the sign-extended upper half. -/
theorem toIntResult_eq (x : Word) : toIntResult x = wordResult ((x.extractLsb' 16 16).signExtend 32) .ok := by
  have shift : x.toInt >>> (16 : ℕ) = ((x.extractLsb' 16 16).signExtend 32).toInt := by
    rw [toInt_signExtend_upperHalf, Int.shiftRight_eq_div_pow]
    rfl
  rw [toIntResult, shift, BitVec.ofInt_toInt]

theorem extractLsb'_upperHalf_lowWord (a : Dword) : (lowWord a).extractLsb' 16 16 = a.extractLsb' 16 16 := by
  ext k hk
  simp [lowWord]

theorem extractLsb'_lowerHalf_lowWord (a : Dword) : (lowWord a).extractLsb' 0 16 = a.extractLsb' 0 16 := by
  ext k hk
  simp [lowWord]

/-! ## From a binary64 -/

/-- Rounding a dyadic rational is adding half the divisor and shifting (R93). -/
theorem rhafz_div_two_pow (n k : ℕ) : rhafz ((n : ℚ) / 2 ^ (k + 1)) = ((n + 2 ^ k) >>> (k + 1) : ℕ) := by
  have half : (n : ℚ) / 2 ^ (k + 1) + 1 / 2 = ((n + 2 ^ k : ℕ) : ℚ) / ((2 ^ (k + 1) : ℕ) : ℚ) := by
    push_cast
    field_simp
    ring
  rw [rhafz_of_nonneg (by positivity), round_eq, half, Rat.floor_natCast_div_natCast, Nat.shiftRight_eq_div_pow,
    Int.natCast_ediv]

/-- A 53-bit significand below half the divisor leaves nothing (R93). -/
theorem add_half_shiftRight_eq_zero {n k : ℕ} (significand : n < 2 ^ 53) (far : 53 ≤ k) :
    (n + 2 ^ k) >>> (k + 1) = 0 := by
  have below : n < 2 ^ k := significand.trans_le (Nat.pow_le_pow_right (by decide) far)
  rw [Nat.shiftRight_eq_div_pow]
  exact Nat.div_eq_of_lt (by rw [Nat.two_pow_succ]; omega)

/-- A left shift needs no rounding (R93). -/
theorem rhafz_mul_two_pow_div (n c m : ℕ) : rhafz (((n * 2 ^ (c + m) : ℕ) : ℚ) / 2 ^ c) = (n <<< m : ℕ) := by
  have integral : ((n * 2 ^ (c + m) : ℕ) : ℚ) / 2 ^ c = ((n <<< m : ℕ) : ℤ) := by
    rw [pow_add, Nat.shiftLeft_eq]
    push_cast
    field_simp
  rw [integral, rhafz_intCast]

theorem mul_two_pow_div_two_pow (n j k : ℕ) : ((n * 2 ^ j : ℕ) : ℚ) / 2 ^ (j + k) = n / 2 ^ k := by
  rw [pow_add]
  push_cast
  field_simp

/-- The field algorithm of R93 rounds the magnitude in raw units, `2^1058` units of a binary64 each. -/
theorem dblRawMagnitude_eq_rhafz (d : Dword) :
    (dblRawMagnitude d : ℤ) = rhafz ((dblUnits (dblExponent d) (dblFraction d) : ℚ) / 2 ^ 1058) := by
  have fraction := dblFraction_lt d
  simp only [dblRawMagnitude]
  generalize dblFraction d = f at *
  cases dblExponent d with
  | zero =>
    rw [if_pos rfl, dblUnits_zero, rhafz_div_two_pow f 1057, add_half_shiftRight_eq_zero (by omega) (by decide)]
  | succ j =>
    rw [dblUnits_succ, if_neg j.succ_ne_zero]
    split
    case isTrue large =>
      obtain ⟨m, rfl⟩ := Nat.exists_eq_add_of_le (Nat.le_of_succ_le_succ large)
      have shift : 1058 + m + 1 - 1059 = m := by omega
      rw [shift, rhafz_mul_two_pow_div]
    case isFalse small =>
      obtain ⟨k, hk⟩ : ∃ k, 1058 = j + (k + 1) := ⟨1057 - j, by omega⟩
      have shift : 1059 - (j + 1) = k + 1 := by omega
      rw [hk, mul_two_pow_div_two_pow, rhafz_div_two_pow, shift, Nat.add_sub_cancel]
      split
      case isTrue far => rw [add_half_shiftRight_eq_zero (by omega) (Nat.le_of_succ_le_succ far)]
      case isFalse => rfl

/-- The units of a binary64 against those of a Fix16 (R92). -/
theorem dblUnit_mul_65536 : (2 : ℚ) ^ (-1074 : ℤ) * 65536 = (2 ^ 1058)⁻¹ := by
  have raw : (65536 : ℚ) = 2 ^ (16 : ℤ) := by norm_num
  have sum : (-1074 + 16 : ℤ) = -(1058 : ℕ) := by norm_num
  rw [raw, ← zpow_add₀ two_ne_zero, sum, zpow_neg, zpow_natCast]

/-- The field algorithm of R93 rounds the exact value in raw units. -/
theorem dblRaw_eq_rhafz {d : Dword} {x : ℚ} (h : dblValue d = some x) : dblRaw d = rhafz (x * 65536) := by
  have scaled : x * 65536 = (dblSignedUnits d : ℚ) / 2 ^ 1058 := by
    rw [dblValue_eq_units h, mul_assoc, dblUnit_mul_65536, div_eq_mul_inv]
  rw [scaled, dblRaw, dblRawMagnitude_eq_rhafz, dblSignedUnits]
  cases dblSign d with
  | false => simp
  | true => simp [neg_div]

/-- Just the exponent 2047 has no value: infinities and NaNs (R71). -/
theorem dblValue_of_finite {d : Dword} (finite : dblExponent d ≠ 2047) :
    dblValue d = some ((dblSignedUnits d : ℚ) * 2 ^ (-1074 : ℤ)) := by
  have some_x : ∃ x, dblValue d = some x := by
    simp only [dblValue, if_neg finite]
    split <;> exact ⟨_, rfl⟩
  obtain ⟨x, hx⟩ := some_x
  rw [hx, dblValue_eq_units hx]

theorem dblExponent_ne_of_dblValue {d : Dword} {x : ℚ} (h : dblValue d = some x) : dblExponent d ≠ 2047 := by
  intro special
  simp [dblValue, special] at h

theorem fromDoubleResult_of_finite {d : Dword} (finite : dblExponent d ≠ 2047) :
    fromDoubleResult d = clampedResult (dblRaw d) := by
  have notSpecial : dblClass d = .zero ∨ dblClass d = .subnormal ∨ dblClass d = .normal := by
    simp only [dblClass, if_neg finite]
    split
    · split
      · exact .inl rfl
      · exact .inr (.inl rfl)
    · exact .inr (.inr rfl)
  unfold fromDoubleResult
  obtain h | h | h := notSpecial <;> rw [h]

/-- FROM_DOUBLE of a finite operand rounds its exact value and clamps (R92). -/
theorem fromDoubleResult_of_dblValue {d : Dword} {x : ℚ} (h : dblValue d = some x) :
    fromDoubleResult d = clampedResult (rhafz (x * 65536)) := by
  rw [fromDoubleResult_of_finite (dblExponent_ne_of_dblValue h), dblRaw_eq_rhafz h]

theorem fromDoubleResult_of_nan {d : Dword} (exponent : dblExponent d = 2047) (fraction : dblFraction d ≠ 0) :
    fromDoubleResult d = wordResult Config.nanResult .nanOperand := by
  have nan : dblClass d = .nan := by rw [dblClass, if_pos exponent, if_neg fraction]
  rw [fromDoubleResult, nan]

/-! ## To a binary64 -/

/-- A binary64 assembled from its three fields (R70) has these fields. -/
theorem dblSign_append (s : Bool) (e : BitVec 11) (f : BitVec 52) : dblSign (BitVec.ofBool s ++ e ++ f) = s := by
  have top := BitVec.getLsbD_append (x := BitVec.ofBool s ++ e) (y := f) (i := 63)
  have first := BitVec.getLsbD_append (x := BitVec.ofBool s) (y := e) (i := 11)
  exact top.trans (first.trans (by simp))

theorem dblExponent_append (s : Bool) (e : BitVec 11) (f : BitVec 52) :
    dblExponent (BitVec.ofBool s ++ e ++ f) = e.toNat := by
  have high := BitVec.extractLsb'_append_eq_of_le (xhi := BitVec.ofBool s ++ e) (xlo := f) (len := 11) le_rfl
  exact congrArg BitVec.toNat (high.trans BitVec.extractLsb'_append_eq_right)

theorem dblFraction_append (s : Bool) (e : BitVec 11) (f : BitVec 52) :
    dblFraction (BitVec.ofBool s ++ e ++ f) = f.toNat :=
  congrArg BitVec.toNat (BitVec.extractLsb'_append_eq_right (a := BitVec.ofBool s ++ e) (b := f))

section
variable {k : ℤ}

theorem log2_natAbs_le (nonzero : k ≠ 0) (small : k.natAbs < 2 ^ 53) : k.natAbs.log2 ≤ 52 :=
  Nat.le_of_lt_succ ((Nat.log2_lt (Int.natAbs_ne_zero.2 nonzero)).2 small)

theorem dblSign_encodeDouble (nonzero : k ≠ 0) : dblSign (encodeDouble k) = decide (k < 0) := by
  rw [encodeDouble, if_neg nonzero]
  exact dblSign_append ..

theorem dblExponent_encodeDouble (nonzero : k ≠ 0) (small : k.natAbs < 2 ^ 53) :
    dblExponent (encodeDouble k) = k.natAbs.log2 + 1007 := by
  have bound := log2_natAbs_le nonzero small
  rw [encodeDouble, if_neg nonzero]
  refine (dblExponent_append ..).trans ?_
  rw [BitVec.toNat_ofNat]
  omega

theorem dblFraction_encodeDouble (nonzero : k ≠ 0) (small : k.natAbs < 2 ^ 53) :
    dblFraction (encodeDouble k) = (k.natAbs - 2 ^ k.natAbs.log2) * 2 ^ (52 - k.natAbs.log2) := by
  have bound := log2_natAbs_le nonzero small
  rw [encodeDouble, if_neg nonzero]
  refine (dblFraction_append ..).trans ?_
  rw [BitVec.toNat_ofNat, Nat.shiftLeft_eq, Nat.mod_eq_of_lt]
  have below : k.natAbs - 2 ^ k.natAbs.log2 < 2 ^ k.natAbs.log2 := by
    have upper := Nat.lt_log2_self (n := k.natAbs)
    rw [Nat.two_pow_succ] at upper
    have := Nat.two_pow_pos k.natAbs.log2
    omega
  calc (k.natAbs - 2 ^ k.natAbs.log2) * 2 ^ (52 - k.natAbs.log2)
    _ < 2 ^ k.natAbs.log2 * 2 ^ (52 - k.natAbs.log2) := Nat.mul_lt_mul_of_pos_right below (Nat.two_pow_pos _)
    _ = 2 ^ 52 := by rw [← pow_add, Nat.add_sub_cancel' bound]

/-- The magnitude that R96 encodes: leading one and fraction together are the raw value shifted. -/
theorem dblUnits_encodeDouble (nonzero : k ≠ 0) (small : k.natAbs < 2 ^ 53) :
    dblUnits (dblExponent (encodeDouble k)) (dblFraction (encodeDouble k)) = k.natAbs * 2 ^ 1058 := by
  have bound := log2_natAbs_le nonzero small
  have leading := Nat.log2_self_le (Int.natAbs_ne_zero.2 nonzero)
  have exponents : 52 - k.natAbs.log2 + (k.natAbs.log2 + 1006) = 1058 := by omega
  rw [dblExponent_encodeDouble nonzero small, dblFraction_encodeDouble nonzero small, dblUnits_succ]
  generalize k.natAbs.log2 = t at *
  generalize k.natAbs = m at *
  have one : 2 ^ 52 = 2 ^ t * 2 ^ (52 - t) := by rw [← pow_add, Nat.add_sub_cancel' bound]
  calc (2 ^ 52 + (m - 2 ^ t) * 2 ^ (52 - t)) * 2 ^ (t + 1006)
    _ = (2 ^ t + (m - 2 ^ t)) * 2 ^ (52 - t) * 2 ^ (t + 1006) := by rw [one, ← Nat.add_mul]
    _ = m * 2 ^ 1058 := by rw [Nat.add_sub_cancel' leading, Nat.mul_assoc, ← pow_add, exponents]

/-- The encoding of R96 counted in units of a binary64. -/
theorem dblSignedUnits_encodeDouble (small : k.natAbs < 2 ^ 53) : dblSignedUnits (encodeDouble k) = k * 2 ^ 1058 := by
  by_cases nonzero : k = 0
  · subst nonzero
    rw [zero_mul]
    rfl
  · rw [dblSignedUnits, dblSign_encodeDouble nonzero, dblUnits_encodeDouble nonzero small]
    have signed : (if decide (k < 0) then -1 else 1) * (k.natAbs : ℤ) = k := by
      split <;> simp_all [abs_of_neg]
    rw [Nat.cast_mul, Nat.cast_pow, Nat.cast_ofNat, ← mul_assoc, signed]

theorem dblExponent_encodeDouble_ne (small : k.natAbs < 2 ^ 53) : dblExponent (encodeDouble k) ≠ 2047 := by
  by_cases nonzero : k = 0
  · subst nonzero
    decide
  · have bound := log2_natAbs_le nonzero small
    rw [dblExponent_encodeDouble nonzero small]
    omega

/-- The encoding of R96 is exact. -/
theorem dblValue_encodeDouble (small : k.natAbs < 2 ^ 53) : dblValue (encodeDouble k) = some ((k : ℚ) / 65536) := by
  have unit : (2 : ℚ) ^ 1058 * 2 ^ (-1074 : ℤ) = 65536⁻¹ := by
    apply eq_inv_of_mul_eq_one_left
    rw [mul_assoc, dblUnit_mul_65536, mul_inv_cancel₀ (by positivity)]
  rw [dblValue_of_finite (dblExponent_encodeDouble_ne small), dblSignedUnits_encodeDouble small, Int.cast_mul,
    Int.cast_pow, Int.cast_ofNat, mul_assoc, unit, div_eq_mul_inv]

/-- Zero is encoded as plus zero (R96, D29), and nothing else has no units. -/
theorem encodeDouble_ne_minusZero (small : k.natAbs < 2 ^ 53) : encodeDouble k ≠ 0x8000000000000000 := by
  intro minusZero
  have units := dblSignedUnits_encodeDouble small
  have none : dblSignedUnits 0x8000000000000000 = 0 := by rfl
  rw [minusZero, none] at units
  obtain rfl : k = 0 := (mul_eq_zero.1 units.symm).resolve_right (by positivity)
  exact absurd minusZero (by decide)

end

theorem natAbs_toInt_word_le (x : Word) : x.toInt.natAbs ≤ 2 ^ 31 := by
  have lo := le_toInt_word x
  have hi := toInt_word_le x
  omega

/-- TO_DOUBLE is exact (R95). -/
theorem dblValue_toDoubleResult (x : Word) : dblValue (toDoubleResult x).data = some (fix16Value x) :=
  dblValue_encodeDouble ((natAbs_toInt_word_le x).trans_lt (by decide))

theorem toDoubleResult_ne_minusZero (x : Word) : (toDoubleResult x).data ≠ 0x8000000000000000 :=
  encodeDouble_ne_minusZero ((natAbs_toInt_word_le x).trans_lt (by decide))

/-- The lowest bits of a binary64 are those of its fraction (R70). -/
theorem toNat_extractLsb'_dblFraction (d : Dword) : (d.extractLsb' 0 21).toNat = dblFraction d % 2 ^ 21 := by
  simp only [dblFraction, BitVec.extractLsb'_toNat, Nat.shiftRight_zero]
  omega

/-- A Fix16 needs at most 31 bits below its leading one, so 21 of the 52 fraction bits are not used (R96). -/
theorem extractLsb'_toDoubleResult (x : Word) : (toDoubleResult x).data.extractLsb' 0 21 = 0 := by
  apply BitVec.eq_of_toNat_eq
  rw [toNat_extractLsb'_dblFraction, toDoubleResult]
  by_cases zero : x.toInt = 0
  · rw [zero]
    rfl
  · have small := natAbs_toInt_word_le x
    have bits : x.toInt.natAbs.log2 < 32 :=
      (Nat.log2_lt (Int.natAbs_ne_zero.2 zero)).2 (small.trans_lt (by decide))
    rw [dblFraction_encodeDouble zero (small.trans_lt (by decide))]
    exact Nat.mod_eq_zero_of_dvd (Dvd.dvd.mul_left (pow_dvd_pow 2 (by omega)) _)

/-- FROM_DOUBLE undoes TO_DOUBLE (R97). -/
theorem fromDoubleResult_toDoubleResult (x : Word) : fromDoubleResult (toDoubleResult x).data = wordResult x .ok := by
  rw [fromDoubleResult_of_dblValue (dblValue_toDoubleResult x), fix16Value, div_mul_cancel₀ _ (by norm_num),
    rhafz_intCast, clampedResult_toInt]

end Sys2Proof.Machine
end

section
/-! The obligations of 41_conversion.md. -/

namespace Sys2Proof.Proofs

open Sys2Proof.Machine

/-- Settles O25: the scaled integer is in the clamp's range exactly for the middle clause. -/
theorem fromIntExactOrClamped : Obligations.FromIntExactOrClamped := by
  intro a b s
  have exec_of {r : Result} (h : fromIntResult (lowWord a) = r) : exec (.fromInt a b) s = .next (s.complete r) :=
    h ▸ exec_fromInt a b s
  refine ⟨rfl, fun ⟨lo, hi⟩ => ?_, fun above => ?_, fun below => ?_⟩
  · change -32768 ≤ (lowWord a).toInt at lo
    change (lowWord a).toInt ≤ 32767 at hi
    rw [exec_of (clampedResult_of_mem (by omega) (by omega)), ofInt_mul_65536, extractLsb'_lowerHalf_lowWord,
      ← wordResult_data _ .ok]
    rfl
  · change 32768 ≤ (lowWord a).toInt at above
    exact exec_of (clampedResult_of_gt (by omega))
  · change (lowWord a).toInt ≤ -32769 at below
    exact exec_of (clampedResult_of_lt (by omega))

/-- Settles O26: shift, sign-extended upper half and floor are one integer. -/
theorem toIntIsFloor : Obligations.ToIntIsFloor := by
  intro a b s
  rw [← extractLsb'_upperHalf_lowWord]
  refine ⟨rfl, ?_, ?_⟩
  · rw [exec_toInt, toIntResult_eq]
    rfl
  · rw [toInt_signExtend_upperHalf]
    exact (Rat.floor_intCast_div_natCast _ 65536).symm

/-- Settles O27: the field algorithm rounds the exact value; the infinities are two patterns, a NaN is known by its
fields. -/
theorem fromDoubleRoundsTheExactValue : Obligations.FromDoubleRoundsTheExactValue := by
  intro a b s
  refine ⟨rfl, fun x value => ?_, ?_, ?_, fun exponent fraction => ?_⟩
  · rw [exec_fromDouble, fromDoubleResult_of_dblValue value]
    rfl
  · rintro rfl
    rfl
  · rintro rfl
    rfl
  · have nan := fromDoubleResult_of_nan (congrArg BitVec.toNat exponent)
      (fun zero => fraction (BitVec.eq_of_toNat_eq zero))
    rw [exec_fromDouble, nan]
    rfl

/-- Settles O28: the encoding is exact and never minus zero, and a value has one such pattern (O29). -/
theorem toDoubleIsExact : Obligations.ToDoubleIsExact := fun a b s =>
  have value := dblValue_toDoubleResult (lowWord a)
  have plus := toDoubleResult_ne_minusZero (lowWord a)
  ⟨rfl, _, exec_toDouble a b s, value, plus,
    fun e he plusE => valueDeterminesTheDouble e _ _ he value plusE plus⟩

/-- Settles O30: the raw value is the integer times 65536, of which TO_INT takes the quotient and TO_DOUBLE the value. -/
theorem integersRoundTrip : Obligations.IntegersRoundTrip := by
  intro i lo hi
  have result : fromIntResult i = wordResult (BitVec.ofInt 32 (i.toInt * 65536)) .ok :=
    clampedResult_of_mem (by omega) (by omega)
  have raw : (BitVec.ofInt 32 (i.toInt * 65536)).toInt = i.toInt * 65536 :=
    BitVec.toInt_ofInt_eq_self (by decide) (by omega) (by omega)
  rw [result, lowWord_wordResult]
  refine ⟨rfl, ?_, ?_⟩
  · have quotient : ((BitVec.ofInt 32 (i.toInt * 65536)).extractLsb' 16 16).signExtend 32 = i := by
      apply BitVec.eq_of_toInt_eq
      rw [toInt_signExtend_upperHalf, raw, Int.mul_ediv_cancel _ (by decide)]
    rw [toIntResult_eq, quotient]
    rfl
  · rw [dblValue_toDoubleResult, fix16Value, raw, Int.cast_mul, Int.cast_ofNat, mul_div_cancel_right₀ _ (by norm_num)]

/-- Settles O31: FROM_DOUBLE rounds the exact raw value, which is an integer in range; the unused fraction bits. -/
theorem doubleRoundTripIsIdentity : Obligations.DoubleRoundTripIsIdentity := by
  intro x b s
  refine ⟨?_, extractLsb'_toDoubleResult x⟩
  rw [exec_fromDouble, fromDoubleResult_toDoubleResult]
  rfl

end Sys2Proof.Proofs
end

section
/-! The rules of 42_multiply.md: bounds of the rounded division, the range of the product of two words, and the 64-bit data
path on exact integers. The obligations of the file follow. -/

namespace Sys2Proof.Machine

/-! ## Bounds of the rounded division -/

/-- The rounded quotient is at least every integer the exact quotient is at least (R84 (b), (d)). -/
theorem le_rhafzDiv {k n d : ℤ} (hd : 0 < d) (h : k * d ≤ n) : k ≤ rhafzDiv n d := by
  have exact_le : (k : ℚ) ≤ (n : ℚ) / d := (le_div_iff₀ (by exact_mod_cast hd)).2 (by exact_mod_cast h)
  rw [rhafzDiv_eq_rhafz n hd.ne', ← rhafz_intCast k]
  exact rhafz_mono exact_le

/-- The rounded quotient is at most every integer the exact quotient is at most (R84 (b), (d)). -/
theorem rhafzDiv_le {k n d : ℤ} (hd : 0 < d) (h : n ≤ k * d) : rhafzDiv n d ≤ k := by
  have le_exact : (n : ℚ) / d ≤ k := (div_le_iff₀ (by exact_mod_cast hd)).2 (by exact_mod_cast h)
  rw [rhafzDiv_eq_rhafz n hd.ne', ← rhafz_intCast k]
  exact rhafz_mono le_exact

/-- The rounded integer of MUL is `rhafz` of the exact product in raw units (R100). -/
theorem mulRounded_eq_rhafz (a b : Word) : mulRounded a b = rhafz ((a.toInt : ℚ) * b.toInt / 65536) := by
  rw [mulRounded, rhafzDiv_eq_rhafz _ (by decide), Int.cast_mul, Int.cast_ofNat]

/-! ## The range of the product of two words -/

/-- The least product is `FIX16_MIN` times `FIX16_MAX` (R101). The product of the distances of the operands from
`FIX16_MIN` is not negative, nor is that of their distances from `FIX16_MAX`; weighted, the two add up to the bound. -/
theorem le_toInt_mul_toInt (a b : Word) : -4611686016279904256 ≤ a.toInt * b.toInt := by
  have fromMin := mul_nonneg (sub_nonneg.2 (le_toInt_word a)) (sub_nonneg.2 (le_toInt_word b))
  have toMax := mul_nonneg (sub_nonneg.2 (toInt_word_le a)) (sub_nonneg.2 (toInt_word_le b))
  linarith

/-- The product stays below 2^62 by at least half of what the operands lie above `FIX16_MIN`, so only the square of
`FIX16_MIN` reaches 2^62 (R101). -/
theorem toInt_mul_toInt_le (a b : Word) :
    2 * (a.toInt * b.toInt) + (a.toInt + 2147483648) + (b.toInt + 2147483648) ≤ 2 ^ 63 := by
  have left := mul_nonneg (sub_nonneg.2 (le_toInt_word a)) (sub_nonneg.2 (toInt_word_le b))
  have right := mul_nonneg (sub_nonneg.2 (le_toInt_word b)) (sub_nonneg.2 (toInt_word_le a))
  linarith

theorem toInt_mul_toInt_le_two_pow (a b : Word) : a.toInt * b.toInt ≤ 2 ^ 62 := by
  have bound := toInt_mul_toInt_le a b
  have ha := le_toInt_word a
  have hb := le_toInt_word b
  omega

theorem toInt_mul_toInt_eq_two_pow_iff (a b : Word) :
    a.toInt * b.toInt = 2 ^ 62 ↔ a = 0x80000000 ∧ b = 0x80000000 := by
  constructor
  · intro reached
    have bound := toInt_mul_toInt_le a b
    have ha := le_toInt_word a
    have hb := le_toInt_word b
    have minimum : (0x80000000 : Word).toInt = -2147483648 := by decide
    constructor <;> apply BitVec.eq_of_toInt_eq <;> omega
  · rintro ⟨rfl, rfl⟩
    decide

/-! ## The 64-bit data path -/

/-- The 64-bit product of the sign-extended operands is the exact product (R101). -/
theorem toInt_signExtend_mul (a b : Word) : (a.signExtend 64 * b.signExtend 64).toInt = a.toInt * b.toInt := by
  have lower := le_toInt_mul_toInt a b
  have upper := toInt_mul_toInt_le_two_pow a b
  rw [BitVec.toInt_mul, BitVec.toInt_signExtend_of_le (by decide), BitVec.toInt_signExtend_of_le (by decide)]
  exact Int.bmod_eq_of_le (by omega) (by omega)

/-- Adding half a raw unit to the product does not wrap (R101). -/
theorem toInt_signExtend_mul_add_half (a b : Word) :
    (a.signExtend 64 * b.signExtend 64 + 32768).toInt = a.toInt * b.toInt + 32768 := by
  have lower := le_toInt_mul_toInt a b
  have upper := toInt_mul_toInt_le_two_pow a b
  have half : (32768 : Dword).toInt = 32768 := by decide
  rw [BitVec.toInt_add, toInt_signExtend_mul, half]
  exact Int.bmod_eq_of_le (by omega) (by omega)

theorem le_mulRounded (a b : Word) : -2 ^ 46 + 2 ^ 15 ≤ mulRounded a b :=
  le_rhafzDiv (by decide) (le_toInt_mul_toInt a b)

theorem mulRounded_le (a b : Word) : mulRounded a b ≤ 2 ^ 46 :=
  rhafzDiv_le (by decide) (toInt_mul_toInt_le_two_pow a b)

end Sys2Proof.Machine
end

section
/-! The obligations of 42_multiply.md. -/

namespace Sys2Proof.Proofs

open Sys2Proof.Machine

/-- Settles O41: the integer algorithm rounds the exact quotient, and the completion clamps and places it. -/
theorem mulRoundsTheExactProduct : Obligations.MulRoundsTheExactProduct := by
  intro a b s
  refine ⟨rfl, ?_⟩
  rw [exec_mul, mulResult, mulRounded_eq_rhafz]
  rfl

/-- Settles O42: the range of the product leaves room in 64 bits, the bit rescale agrees with the rounded division on every
64-bit product (O37), and the bounds of the product are multiples of 65536. -/
theorem multiplierDataPathIsExact : Obligations.MultiplierDataPathIsExact := by
  intro a b
  have rescaled : rescaleBits (a.signExtend 64 * b.signExtend 64) = mulRounded a b := by
    rw [bitRescaleAgrees, toInt_signExtend_mul, mulRounded]
  exact ⟨toInt_signExtend_mul a b, le_toInt_mul_toInt a b, toInt_mul_toInt_le_two_pow a b,
    toInt_mul_toInt_eq_two_pow_iff a b, toInt_signExtend_mul_add_half a b, rescaled, le_mulRounded a b,
    mulRounded_le a b⟩

end Sys2Proof.Proofs
end

section
/-! The rules of 43_divide.md: the rounded division on magnitudes, the range of DIV's rounded integer, and the two answers
of DIV with the condition of its saturation. The obligations of the file follow. -/

namespace Sys2Proof.Machine

/-! ## The rounded division on magnitudes -/

/-- On natural numbers the rounded division is the natural-number division with its increment (R112). -/
theorem rhafzDiv_natCast (m : ℕ) {k : ℕ} (hk : 0 < k) :
    rhafzDiv m k = (if k ≤ 2 * (m % k) then m / k + 1 else m / k : ℕ) := by
  rw [rhafzDiv_of_nonneg (Int.natCast_nonneg m) (by exact_mod_cast hk)]
  norm_cast

/-- The sign of the quotient comes off dividend and divisor and is put back on the result (R82, R112). -/
theorem rhafzDiv_eq_ite_natAbs (n : ℤ) {d : ℤ} (hd : d ≠ 0) :
    rhafzDiv n d =
      if xor (decide (n < 0)) (decide (d < 0)) then -rhafzDiv n.natAbs d.natAbs else rhafzDiv n.natAbs d.natAbs := by
  obtain hn | hn := lt_or_ge n 0 <;> obtain hd' | hd' := lt_or_ge d 0
  · simp [hn, hd', abs_of_neg, rhafzDiv_neg_left, rhafzDiv_neg_right, hd]
  · simp [hn, hd'.not_gt, abs_of_neg, abs_of_nonneg hd', rhafzDiv_neg_left, hd]
  · simp [hn.not_gt, hd', abs_of_neg, abs_of_nonneg hn, rhafzDiv_neg_right, hd]
  · simp [hn.not_gt, hd'.not_gt, abs_of_nonneg hn, abs_of_nonneg hd']

theorem natAbs_rhafzDiv (n : ℤ) {d : ℤ} (hd : d ≠ 0) :
    ((rhafzDiv n d).natAbs : ℤ) = rhafzDiv n.natAbs d.natAbs := by
  rw [rhafzDiv_eq_ite_natAbs n hd, rhafzDiv_natCast _ (Int.natAbs_pos.2 hd)]
  split
  · rw [Int.natAbs_neg, Int.natAbs_natCast]
  · rw [Int.natAbs_natCast]

/-- The rounded quotient has the sign of the exact quotient (R81). -/
theorem rhafzDiv_eq_ite_natAbs_self (n : ℤ) {d : ℤ} (hd : d ≠ 0) :
    rhafzDiv n d =
      if xor (decide (n < 0)) (decide (d < 0)) then -((rhafzDiv n d).natAbs : ℤ) else (rhafzDiv n d).natAbs := by
  rw [natAbs_rhafzDiv n hd]
  exact rhafzDiv_eq_ite_natAbs n hd

/-- A bound of the exact quotient's magnitude bounds the rounded quotient's (R84 (b), (d)). -/
theorem natAbs_rhafzDiv_le {n d : ℤ} {k : ℕ} (hd : d ≠ 0) (h : n.natAbs ≤ k * d.natAbs) :
    (rhafzDiv n d).natAbs ≤ k := by
  have rounded : rhafzDiv n.natAbs d.natAbs ≤ k :=
    rhafzDiv_le (by exact_mod_cast Int.natAbs_pos.2 hd) (by exact_mod_cast h)
  rw [← natAbs_rhafzDiv n hd] at rounded
  exact_mod_cast rounded

/-! ## The answers of DIV -/

theorem toInt_word_ne_zero {b : Word} (hb : b ≠ 0) : b.toInt ≠ 0 := fun zero =>
  hb (BitVec.eq_of_toInt_eq (zero.trans BitVec.toInt_zero.symm))

/-- With a divisor that is not zero DIV clamps its rounded integer (R110). -/
theorem divResult_of_ne_zero (a : Word) {b : Word} (hb : b ≠ 0) : divResult a b = clampedResult (divRounded a b) :=
  if_neg (toInt_word_ne_zero hb)

/-- With a zero divisor DIV raises its error (R113). -/
theorem divResult_zero (a : Word) : divResult a 0 = raise .divByZero := rfl

/-- The rounded integer of DIV is `rhafz` of the exact quotient in raw units (R110). -/
theorem divRounded_eq_rhafz (a : Word) {b : Word} (hb : b ≠ 0) :
    divRounded a b = rhafz ((a.toInt : ℚ) * 65536 / b.toInt) := by
  rw [divRounded, rhafzDiv_eq_rhafz _ (toInt_word_ne_zero hb), Int.cast_mul, Int.cast_ofNat]

theorem clampedResult_status_eq_saturated_iff (v : ℤ) :
    (clampedResult v).status = .saturated ↔ 2147483647 < v ∨ v < -2147483648 := by
  obtain ⟨above, h⟩ | ⟨below, h⟩ | ⟨lo, hi, h⟩ := sat32_cases v <;> rw [clampedResult_status, h]
  · exact iff_of_true rfl (.inl above)
  · exact iff_of_true rfl (.inr below)
  · exact iff_of_false nofun (by omega)

/-! ## The range of the rounded integer -/

/-- The shift of the widened dividend loses nothing (R111). -/
theorem toInt_signExtend_shiftLeft (a : Word) : (a.signExtend 64 <<< 16).toInt = a.toInt * 65536 := by
  have lo := le_toInt_word a
  have hi := toInt_word_le a
  have power : (BitVec.twoPow 64 16).toInt = 65536 := by decide
  rw [BitVec.shiftLeft_eq_mul_twoPow, BitVec.toInt_mul, BitVec.toInt_signExtend_of_le (by decide), power]
  exact Int.bmod_eq_of_le (by omega) (by omega)

theorem natAbs_toInt_word_eq_two_pow_iff (x : Word) : x.toInt.natAbs = 2 ^ 31 ↔ x = 0x80000000 := by
  constructor
  · intro reached
    have hi := toInt_word_le x
    have minimum : (0x80000000 : Word).toInt = -2147483648 := by decide
    apply BitVec.eq_of_toInt_eq
    omega
  · rintro rfl
    decide

/-- The rounded integer keeps within the magnitude of the pre-scaled dividend, the divisor's being at least 1 (R111). -/
theorem natAbs_divRounded_le (a : Word) {b : Word} (hb : b ≠ 0) : (divRounded a b).natAbs ≤ 2 ^ 47 := by
  have small := natAbs_toInt_word_le a
  have nonzero := toInt_word_ne_zero hb
  exact natAbs_rhafzDiv_le nonzero (by omega)

/-- Dividing by 1.0 or more in magnitude does not make a raw value larger (R114). -/
theorem natAbs_divRounded_le_natAbs (a : Word) {b : Word} (one : 65536 ≤ b.toInt.natAbs) :
    (divRounded a b).natAbs ≤ a.toInt.natAbs := by
  refine natAbs_rhafzDiv_le (by omega) ?_
  rw [Int.natAbs_mul]
  exact Nat.mul_le_mul_left _ one

/-- Dividing by more than 1.0 in magnitude keeps even `FIX16_MIN` off the bounds (R114). -/
theorem natAbs_divRounded_le_of_one_lt (a : Word) {b : Word} (one : 65536 < b.toInt.natAbs) :
    (divRounded a b).natAbs ≤ 2147483647 := by
  have small := natAbs_toInt_word_le a
  exact natAbs_rhafzDiv_le (by omega) (by omega)

/-- With a divisor of 1.0 or more in magnitude the rounded integer leaves the range only for `FIX16_MIN / -1.0`: it is at
most the dividend's magnitude, so it would have to be 2^31, which of all these divisors only -1.0 gives (R114). -/
theorem divRounded_out_of_range_iff (a : Word) {b : Word} (one : 65536 ≤ b.toInt.natAbs) :
    2147483647 < divRounded a b ∨ divRounded a b < -2147483648 ↔ a = 0x80000000 ∧ b = 0xFFFF0000 := by
  constructor
  · intro out
    have shrinks := natAbs_divRounded_le_natAbs a one
    have small := natAbs_toInt_word_le a
    obtain rfl : a = 0x80000000 := (natAbs_toInt_word_eq_two_pow_iff a).1 (by omega)
    refine ⟨rfl, ?_⟩
    obtain unit | more := one.eq_or_lt
    · obtain plus | minus := Int.natAbs_eq_iff.1 unit.symm
      · obtain rfl : b = 0x00010000 := BitVec.eq_of_toInt_eq plus
        exact absurd out (by decide)
      · exact BitVec.eq_of_toInt_eq minus
    · have inside := natAbs_divRounded_le_of_one_lt 0x80000000 more
      omega
  · rintro ⟨rfl, rfl⟩
    decide

/-- The rounded integer has the sign of the exact quotient (R114). -/
theorem divRounded_eq_ite_natAbs (a : Word) {b : Word} (hb : b ≠ 0) :
    divRounded a b =
      if xor (decide (a.toInt < 0)) (decide (b.toInt < 0)) then -((divRounded a b).natAbs : ℤ)
      else (divRounded a b).natAbs := by
  have sign : a.toInt * 65536 < 0 ↔ a.toInt < 0 := by omega
  rw [← decide_eq_decide.2 sign]
  exact rhafzDiv_eq_ite_natAbs_self _ (toInt_word_ne_zero hb)

/-- A saturated result is the bound on the side of the exact quotient's sign (R114). -/
theorem lowWord_divResult_of_saturated {a b : Word} (hb : b ≠ 0) (sat : (divResult a b).status = .saturated) :
    lowWord (divResult a b).data =
      if xor (decide (a.toInt < 0)) (decide (b.toInt < 0)) then 0x80000000 else 0x7FFFFFFF := by
  have sign := divRounded_eq_ite_natAbs a hb
  rw [divResult_of_ne_zero a hb] at sat ⊢
  obtain above | below := (clampedResult_status_eq_saturated_iff _).1 sat
  · rw [clampedResult_of_gt above, lowWord_wordResult]
    split_ifs at sign ⊢
    · omega
    · rfl
  · rw [clampedResult_of_lt below, lowWord_wordResult]
    split_ifs at sign ⊢
    · rfl
    · omega

end Sys2Proof.Machine
end

section
/-! The obligations of 43_divide.md. -/

namespace Sys2Proof.Proofs

open Sys2Proof.Machine

/-- Settles O36: the sign comes off both operands, and on magnitudes the truncated division is the natural-number one. -/
theorem magnitudeDivisionAgrees : Obligations.MagnitudeDivisionAgrees := by
  intro n d hd
  rw [rhafzDiv_eq_ite_natAbs n hd, rhafzDiv_natCast _ (Int.natAbs_pos.2 hd)]

/-- Settles O45: the integer algorithm rounds the exact quotient, and the completion clamps and places it. -/
theorem divRoundsTheExactQuotient : Obligations.DivRoundsTheExactQuotient := by
  refine fun a b s => ⟨rfl, fun hb => ?_, ?_⟩
  · rw [exec_div, divResult_of_ne_zero _ hb, divRounded_eq_rhafz _ hb]
    rfl
  · rintro rfl
    rw [exec_div, divResult_zero]
    rfl

/-- Settles O47: quotient and remainder on magnitudes, the dividend's range times 2^16, and the bound of the rounded
integer, all for a divisor of magnitude at least 1. -/
theorem dividerWidthsSuffice : Obligations.DividerWidthsSuffice := by
  intro a b hb
  have lo := le_toInt_word a
  have hi := toInt_word_le a
  have divisor := natAbs_toInt_word_le b
  have quotient : ((a.toInt * 65536).tdiv b.toInt).natAbs ≤ (a.toInt * 65536).natAbs := by
    rw [Int.natAbs_tdiv]
    exact Nat.div_le_self _ _
  have remainder : ((a.toInt * 65536).tmod b.toInt).natAbs < b.toInt.natAbs := by
    rw [Int.natAbs_tmod]
    exact Nat.mod_lt _ (Int.natAbs_pos.2 (toInt_word_ne_zero hb))
  exact ⟨toInt_signExtend_shiftLeft a, by omega, by omega, by omega, remainder, divisor,
    natAbs_toInt_word_eq_two_pow_iff b, by omega,
    natAbs_divRounded_le a hb⟩

/-- Settles O48: DIV saturates exactly when its rounded integer leaves the range, and that integer has the sign of the
exact quotient. -/
theorem divSaturatesBySign : Obligations.DivSaturatesBySign := by
  refine fun a b hb => ⟨fun one => ?_, lowWord_divResult_of_saturated hb⟩
  rw [divResult_of_ne_zero a hb, clampedResult_status_eq_saturated_iff]
  exact divRounded_out_of_range_iff a one

/-- Settles O46: the completion with the error, then the edge that delivers it. -/
theorem zeroDivisorIsAnErrorResponse : Obligations.ZeroDivisorIsAnErrorResponse := by
  intro a s
  have error : isErrorCode OpError.divByZero.status.code = true := by decide
  refine ⟨s.complete (raise .divByZero), ?_, rfl, error, fun rst ready => ?_⟩
  · rw [exec_div, divResult_zero]
  · exact ⟨_, step_deliver rst rfl ready, rfl, rfl⟩

end Sys2Proof.Proofs
end

section
/-! The rules of 44_properties.md: the value and the status of a clamped integer and of its negation, the rounded division
of zero and of a multiple, and from these the signs, the units and the exact values of MUL and DIV. The obligations of the
file follow. -/

namespace Sys2Proof.Machine

/-! ## Clamped integers -/

/-- The returned value of a clamped integer, read back from the response (R85, R129). -/
theorem toInt_lowWord_clampedResult (v : ℤ) :
    (lowWord (clampedResult v).data).toInt = max (-2147483648) (min 2147483647 v) := by
  rw [lowWord_clampedResult, toInt_sat32]

/-- The clamp is monotone (R129). -/
theorem toInt_sat32_mono {v w : ℤ} (h : v ≤ w) : (sat32 v).1.toInt ≤ (sat32 w).1.toInt := by
  rw [toInt_sat32, toInt_sat32]
  gcongr

theorem clampedResult_status_eq_ok_iff (v : ℤ) :
    (clampedResult v).status = .ok ↔ -2147483648 ≤ v ∧ v ≤ 2147483647 := by
  obtain ⟨above, h⟩ | ⟨below, h⟩ | ⟨lo, hi, h⟩ := sat32_cases v <;> rw [clampedResult_status, h]
  · exact iff_of_false nofun (by omega)
  · exact iff_of_false nofun (by omega)
  · exact iff_of_true rfl ⟨lo, hi⟩

/-- With status `OK` the returned value is the integer itself (R85). -/
theorem toInt_lowWord_clampedResult_of_ok {v : ℤ} (ok : (clampedResult v).status = .ok) :
    (lowWord (clampedResult v).data).toInt = v := by
  obtain ⟨lo, hi⟩ := (clampedResult_status_eq_ok_iff v).1 ok
  rw [toInt_lowWord_clampedResult, min_eq_right hi, max_eq_right lo]

/-- A result with `OK` can be negated within the range, unless it is the low bound (R120, R121). -/
theorem clampedResult_neg_of_ok {v : ℤ} (ok : (clampedResult v).status = .ok)
    (notMin : (lowWord (clampedResult v).data).toInt ≠ -2147483648) :
    (clampedResult (-v)).status = .ok ∧
      (lowWord (clampedResult (-v)).data).toInt = -(lowWord (clampedResult v).data).toInt := by
  obtain ⟨lo, hi⟩ := (clampedResult_status_eq_ok_iff v).1 ok
  rw [toInt_lowWord_clampedResult_of_ok ok] at notMin ⊢
  have negated : (clampedResult (-v)).status = .ok :=
    (clampedResult_status_eq_ok_iff (-v)).2 (by omega)
  exact ⟨negated, toInt_lowWord_clampedResult_of_ok negated⟩

/-- What saturates high goes to the low bound when negated, with `OK` if it was 2^31, which negated is in range (R120). -/
theorem clampedResult_neg_of_gt {v : ℤ} (above : 2147483647 < v) :
    lowWord (clampedResult (-v)).data = 0x80000000 ∧
      (clampedResult (-v)).status = if v = 2147483648 then .ok else .saturated := by
  by_cases next : v = 2147483648
  · subst next
    decide
  · rw [clampedResult_of_lt (by omega), if_neg next]
    exact ⟨lowWord_wordResult .., rfl⟩

/-- With status `OK` a rounded and clamped number is within half a unit of the exact one (R126). -/
theorem abs_clampedResult_rhafz_sub_le_half {x : ℚ} (ok : (clampedResult (rhafz x)).status = .ok) :
    |((lowWord (clampedResult (rhafz x)).data).toInt : ℚ) - x| ≤ 1 / 2 := by
  rw [toInt_lowWord_clampedResult_of_ok ok]
  exact abs_rhafz_sub_le_half x

/-! ## The rounded division of a multiple -/

/-- An exact quotient needs no rounding (R84 (d)). -/
theorem rhafzDiv_mul_cancel (k : ℤ) {d : ℤ} (hd : d ≠ 0) : rhafzDiv (k * d) d = k := by
  rw [rhafzDiv_eq_rhafz _ hd, Int.cast_mul, mul_div_cancel_right₀ _ (Int.cast_ne_zero.2 hd), rhafz_intCast]

theorem rhafzDiv_zero {d : ℤ} (hd : d ≠ 0) : rhafzDiv 0 d = 0 := by
  simpa using rhafzDiv_mul_cancel 0 hd

/-! ## Signs -/

/-- Every Fix16 but `FIX16_MIN` can be negated. -/
theorem toInt_neg_word {a : Word} (ha : a ≠ 0x80000000) : (-a).toInt = -a.toInt :=
  BitVec.toInt_neg_of_ne_intMin ha

/-- The product, and with it everything MUL computes, does not depend on the order of the operands (R124). -/
theorem mulRounded_comm (a b : Word) : mulRounded a b = mulRounded b a := by
  rw [mulRounded, mulRounded, mul_comm]

theorem mulResult_comm (a b : Word) : mulResult a b = mulResult b a := by
  rw [mulResult, mulResult, mulRounded_comm]

theorem mulRounded_neg_left {a : Word} (b : Word) (ha : a ≠ 0x80000000) : mulRounded (-a) b = -mulRounded a b := by
  rw [mulRounded, mulRounded, toInt_neg_word ha, neg_mul, rhafzDiv_neg_left _ (by decide)]

theorem mulRounded_neg_right {a : Word} (b : Word) (ha : a ≠ 0x80000000) : mulRounded b (-a) = -mulRounded b a := by
  rw [mulRounded_comm, mulRounded_neg_left b ha, mulRounded_comm]

theorem mulRounded_neg_neg {a b : Word} (ha : a ≠ 0x80000000) (hb : b ≠ 0x80000000) :
    mulRounded (-a) (-b) = mulRounded a b := by
  rw [mulRounded_neg_left _ ha, mulRounded_neg_right _ hb, neg_neg]

/-- The result follows the rounded integer's sign when the clamp left it alone and its negation is in range (R120). -/
theorem mulResult_neg_left_of_ok {a b : Word} (ha : a ≠ 0x80000000) (ok : (mulResult a b).status = .ok)
    (notMin : (lowWord (mulResult a b).data).toInt ≠ -2147483648) :
    (mulResult (-a) b).status = .ok ∧
      (lowWord (mulResult (-a) b).data).toInt = -(lowWord (mulResult a b).data).toInt := by
  rw [mulResult, mulResult, mulRounded_neg_left b ha]
  exact clampedResult_neg_of_ok ok notMin

theorem divRounded_neg_left {a b : Word} (hb : b ≠ 0) (ha : a ≠ 0x80000000) :
    divRounded (-a) b = -divRounded a b := by
  rw [divRounded, divRounded, toInt_neg_word ha, neg_mul, rhafzDiv_neg_left _ (toInt_word_ne_zero hb)]

theorem divRounded_neg_right (a : Word) {b : Word} (hb : b ≠ 0) (hmin : b ≠ 0x80000000) :
    divRounded a (-b) = -divRounded a b := by
  rw [divRounded, divRounded, toInt_neg_word hmin, rhafzDiv_neg_right _ (toInt_word_ne_zero hb)]

/-- Both operands negated leave the response, a zero divisor's too (R121). -/
theorem divResult_neg_neg {a b : Word} (ha : a ≠ 0x80000000) (hmin : b ≠ 0x80000000) :
    divResult (-a) (-b) = divResult a b := by
  by_cases hb : b = 0
  · rw [hb, neg_zero, divResult_zero, divResult_zero]
  · have hb' : -b ≠ 0 := neg_ne_zero.2 hb
    rw [divResult_of_ne_zero _ hb', divResult_of_ne_zero _ hb, divRounded_neg_left hb' ha,
      divRounded_neg_right _ hb hmin, neg_neg]

/-- A quotient with status `OK` had a divisor (R113). -/
theorem ne_zero_of_divResult_ok {a b : Word} (ok : (divResult a b).status = .ok) : b ≠ 0 := by
  rintro rfl
  rw [divResult_zero] at ok
  exact absurd ok (by decide)

/-! ## One and zero -/

/-- 1.0 is the raw value 65536, by which MUL divides its product and DIV multiplies its dividend (R122). -/
theorem mulResult_one (a : Word) : mulResult a 0x00010000 = wordResult a .ok := by
  have exact_product : mulRounded a 0x00010000 = a.toInt := rhafzDiv_mul_cancel a.toInt (by decide)
  rw [mulResult, exact_product, clampedResult_toInt]

theorem divResult_one (a : Word) : divResult a 0x00010000 = wordResult a .ok := by
  have exact_quotient : divRounded a 0x00010000 = a.toInt := rhafzDiv_mul_cancel a.toInt (by decide)
  rw [divResult_of_ne_zero a (by decide), exact_quotient, clampedResult_toInt]

theorem mulResult_zero (a : Word) : mulResult a 0 = wordResult 0 .ok := by
  have zero_product : mulRounded a 0 = 0 := by
    rw [mulRounded, BitVec.ofNat_eq_ofNat, BitVec.toInt_zero, mul_zero, rhafzDiv_zero (by decide)]
  rw [mulResult, zero_product]
  rfl

theorem divResult_zero_left {b : Word} (hb : b ≠ 0) : divResult 0 b = wordResult 0 .ok := by
  have zero_quotient : divRounded 0 b = 0 := by
    rw [divRounded, BitVec.ofNat_eq_ofNat, BitVec.toInt_zero, zero_mul, rhafzDiv_zero (toInt_word_ne_zero hb)]
  rw [divResult_of_ne_zero 0 hb, zero_quotient]
  rfl

/-! ## Exact values -/

/-- MUL is `FD` of the exact product of the operands' real values (R103). -/
theorem mulResult_eq_realToFix16 (a b : Word) : mulResult a b = realToFix16 (fix16Value a * fix16Value b) := by
  have raw : fix16Value a * fix16Value b * 65536 = (a.toInt : ℚ) * b.toInt / 65536 := by
    rw [fix16Value, fix16Value]
    ring
  rw [mulResult, mulRounded_eq_rhafz, realToFix16, raw]

/-- DIV is `FD` of the exact quotient of the operands' real values (R115). -/
theorem divResult_eq_realToFix16 (a : Word) {b : Word} (hb : b ≠ 0) :
    divResult a b = realToFix16 (fix16Value a / fix16Value b) := by
  have raw : fix16Value a / fix16Value b * 65536 = (a.toInt : ℚ) * 65536 / b.toInt := by
    rw [fix16Value, fix16Value, div_div_div_cancel_right₀ (by norm_num), div_mul_eq_mul_div]
  rw [divResult_of_ne_zero a hb, divRounded_eq_rhafz a hb, realToFix16, raw]

end Sys2Proof.Machine
end

section
/-! The obligations of 44_properties.md. -/

namespace Sys2Proof.Proofs

open Sys2Proof.Machine

/-- Settles O40: each of the four ends in the clamp of its rounded integer, FROM_DOUBLE's and DIV's as the lemmas on their
answers say. -/
theorem resultsClampTheRoundedInteger : Obligations.ResultsClampTheRoundedInteger := by
  refine ⟨fun i => toInt_lowWord_clampedResult _, fun d x value => ?_, fun a b => toInt_lowWord_clampedResult _,
    fun a b hb => ?_, fun _ _ => toInt_sat32_mono⟩
  · rw [fromDoubleResult_of_dblValue value, toInt_lowWord_clampedResult]
  · rw [divResult_of_ne_zero a hb, toInt_lowWord_clampedResult]

/-- Settles O43: the result pair is the same, and the outcome depends on nothing else. -/
theorem mulCommutes : Obligations.MulCommutes := fun a b s =>
  exec_congr (i := .mul a (lowWord b)) (j := .mul b (lowWord a)) (mulResult_comm (lowWord a) (lowWord b)) s

/-- Settles O44: the rounded division is odd in the product, and a clamped integer is followed through its negation; the
right-hand clauses are the left-hand ones with the operands exchanged. -/
theorem mulSignSymmetry : Obligations.MulSignSymmetry := by
  intro a b ha
  refine ⟨mulRounded_neg_left b ha, mulRounded_neg_right b ha, fun hb => ⟨mulRounded_neg_neg ha hb, ?_⟩,
    mulResult_neg_left_of_ok ha, ?_, fun above => ?_⟩
  · rw [mulResult, mulRounded_neg_neg ha hb, mulResult]
  · rw [mulResult_comm b a, mulResult_comm b (-a)]
    exact mulResult_neg_left_of_ok ha
  · rw [mulResult, mulRounded_neg_left b ha]
    exact clampedResult_neg_of_gt above

/-- Settles O49: the rounded division is odd in dividend and divisor, and status `OK` excludes the zero divisor. -/
theorem divSignSymmetry : Obligations.DivSignSymmetry := by
  intro a b
  refine ⟨divRounded_neg_left, divRounded_neg_right a, divResult_neg_neg, fun ok notMin => ?_,
    congrArg Result.status (divResult_zero (-a))⟩
  have hb := ne_zero_of_divResult_ok ok
  rw [divResult_of_ne_zero a hb] at ok notMin ⊢
  obtain ⟨-, opposite⟩ := clampedResult_neg_of_ok ok notMin
  refine ⟨fun ha => ?_, fun hmin => ?_⟩
  · rw [divResult_of_ne_zero (-a) hb, divRounded_neg_left hb ha, opposite]
  · rw [divResult_of_ne_zero a (neg_ne_zero.2 hb), divRounded_neg_right a hb hmin, opposite]

/-- Settles O50: product and quotient by 65536 cancel the rescale exactly, and the clamp keeps every Fix16. -/
theorem oneIsTheIdentity : Obligations.OneIsTheIdentity := by
  have one : lowWord 0x00010000 = 0x00010000 := by decide
  refine ⟨by decide, fun a s => ⟨?_, ?_, ?_⟩⟩
  · rw [exec_mul, mulResult_one]
    rfl
  · rw [exec_div, divResult_one]
    rfl
  · rw [exec_mul, one, mulResult_comm, mulResult_one]
    rfl

/-- Settles O51: a zero product and a zero dividend round to zero; the zero divisor's error; the counterexample by
evaluation. -/
theorem zeroLaws : Obligations.ZeroLaws := by
  have tiny : mulResult (lowWord 1) 0x7FFF = wordResult 0 .ok := by decide
  refine ⟨fun a b s => ⟨?_, fun ha => ?_, fun ha hb => ?_, _, exec_div a 0 s, rfl⟩, fun s => ?_⟩
  · rw [exec_mul, mulResult_zero]
    rfl
  · change lowWord a = 0 at ha
    rw [exec_mul, ha, mulResult_comm, mulResult_zero]
    rfl
  · change lowWord a = 0 at ha
    rw [exec_div, ha, divResult_zero_left hb]
    rfl
  · rw [exec_mul, tiny]
    rfl

/-- Settles O52: each is the clamp of `rhafz` of the exact number, and with `OK` the clamp changes nothing. -/
theorem resultsAreWithinHalfAUnit : Obligations.ResultsAreWithinHalfAUnit := by
  refine ⟨fun a b ok => ?_, fun a b ok => ?_, fun d x value ok => ?_⟩
  · rw [mulResult, mulRounded_eq_rhafz] at ok ⊢
    exact abs_clampedResult_rhafz_sub_le_half ok
  · have hb := ne_zero_of_divResult_ok ok
    rw [divResult_of_ne_zero a hb, divRounded_eq_rhafz a hb] at ok ⊢
    exact abs_clampedResult_rhafz_sub_le_half ok
  · rw [fromDoubleResult_of_dblValue value] at ok ⊢
    exact abs_clampedResult_rhafz_sub_le_half ok

/-- Settles O53: TO_DOUBLE is exact, so the two values are the operands' real values. -/
theorem operatorsAgreeWithTheRealReference : Obligations.OperatorsAgreeWithTheRealReference := by
  intro a b x y hx hy
  rw [dblValue_toDoubleResult, Option.some.injEq] at hx hy
  subst hx hy
  exact ⟨mulResult_eq_realToFix16 a b, divResult_eq_realToFix16 a⟩

/-- Settles O54: five evaluations of the model. -/
theorem counterexamplesToFalseLaws : Obligations.CounterexamplesToFalseLaws :=
  ⟨by decide, by decide, by decide, by decide, by decide⟩

end Sys2Proof.Proofs
end

section
/-! The rules of 60_exceptions.md: which status codes carry the error bit, and which operations raise the two errors. The
obligation of the file follows. -/

namespace Sys2Proof.Machine

/-- `OK`, `SATURATED` and `NAN_OPERAND` are not errors (R66). -/
theorem isErrorCode_eq_false_of_mem {c : StatusCode} (h : c ∈ [0b000#3, 0b001#3, 0b010#3]) : isErrorCode c = false := by
  revert c
  decide

@[simp] theorem isErrorCode_ok : isErrorCode Status.ok.code = false := by decide

/-- Saturation is not an error (R85). -/
@[simp] theorem isErrorCode_sat32 (v : ℤ) : isErrorCode (sat32 v).2.code = false :=
  isErrorCode_eq_false_of_mem (List.mem_append_left [_] (clampedResult_status_mem v))

/-- FROM_DOUBLE raises no error, a NaN included (R92). -/
@[simp] theorem isErrorCode_fromDoubleResult (d : Dword) : isErrorCode (fromDoubleResult d).status.code = false :=
  isErrorCode_eq_false_of_mem (fromDoubleResult_status_mem d)

/-- Both errors set the error bit (R140). -/
@[simp] theorem isErrorCode_opError (e : OpError) : isErrorCode e.status.code = true := by
  cases e <;> decide

/-- DIV raises an error for a zero divisor only (R113, R142). -/
@[simp] theorem isErrorCode_divResult_iff (a b : Word) : isErrorCode (divResult a b).status.code = true ↔ b = 0 := by
  constructor
  · intro error
    by_contra hb
    rw [divResult_of_ne_zero a hb, clampedResult_status, isErrorCode_sat32] at error
    nomatch error
  · rintro rfl
    rw [divResult_zero, raise_status, isErrorCode_opError]

/-- What raises an error, of all operations (R140): DIV with a zero divisor and the two reserved codes. -/
theorem isErrorCode_resultOf_iff (i : Instr) :
    isErrorCode (resultOf i).status.code = true ↔ (i.opCode = 5 ∧ i.fieldB = 0) ∨ i.opCode = 6 ∨ i.opCode = 7 := by
  cases i with
  | fromInt a b => simp [resultOf, fromIntResult, Instr.opCode]
  | toInt a b => simp [resultOf, toIntResult, Instr.opCode]
  | fromDouble a b => simp [resultOf, Instr.opCode]
  | toDouble a b => simp [resultOf, toDoubleResult, Instr.opCode]
  | mul a b => simp [resultOf, mulResult, Instr.opCode]
  | div a b => simp [resultOf, Instr.opCode, Instr.fieldB]
  | op6 a b => simp [resultOf, Instr.opCode]
  | op7 a b => simp [resultOf, Instr.opCode]

/-- DIV with a zero divisor raises `DIV_BY_ZERO`, whatever the dividend (R142). -/
theorem resultOf_of_zero_divisor {i : Instr} (code : i.opCode = 5) (zero : i.fieldB = 0) :
    resultOf i = raise .divByZero := by
  rw [← decodeFields_fields i, code, zero]
  rfl

/-- A reserved code raises `ILLEGAL_OP` (R143). -/
theorem resultOf_of_reserved {i : Instr} (code : i.opCode = 6 ∨ i.opCode = 7) : resultOf i = raise .illegalOp := by
  obtain six | seven := code
  · rw [← decodeFields_fields i, six]
    rfl
  · rw [← decodeFields_fields i, seven]
    rfl

end Sys2Proof.Machine
end

section
/-! The obligation of 60_exceptions.md. -/

namespace Sys2Proof.Proofs

open Sys2Proof.Machine

/-- Settles O24: the error bit of each row's result pair, and the pairs that the two errors raise. -/
theorem errorsAreTheTwoDocumentedOnes : Obligations.ErrorsAreTheTwoDocumentedOnes := by
  refine fun i s => ⟨_, exec_eq_complete i s, isErrorCode_resultOf_iff i, fun code zero => ?_, fun code => ?_⟩
  · rw [State.complete_stat, resultOf_of_zero_divisor code zero]
    rfl
  · rw [State.complete_stat, resultOf_of_reserved code]
    rfl

end Sys2Proof.Proofs
end

section
/-! The rules of 70_reset_and_hazards.md: the edge of a reset, the acceptance at the edge after it, and an edge in every
phase. The obligations of the file follow. -/

namespace Sys2Proof.Machine

/-- An edge with `rst = 1` resets in every phase, whatever else the host drives (R160). -/
theorem step_reset {s : State} (rst : s.pins.rst = true) : step s = .next s.resetEdge.advance :=
  step_of_clockEdge (clockEdge_reset s rst)

/-- After a reset edge the outputs are those of R32. -/
theorem State.resetEdge_outputs (s : State) : s.resetEdge.outputs = ⟨true, false, 0, 0⟩ := rfl

/-- Reset leaves the environment as it is. -/
@[simp] theorem State.resetEdge_pinsAt (s : State) (k : Nat) : s.resetEdge.pinsAt k = s.pinsAt k := rfl

/-- The inputs of the edge after a reset edge. -/
theorem State.resetEdge_advance_pins (s : State) : s.resetEdge.advance.pins = s.pinsAt 1 := by
  rw [State.pins, State.advance_pinsAt, State.resetEdge_pinsAt]

/-- A reset edge and the acceptance at the edge after it (R164). -/
theorem edges_reset_accept {s : State} (rst : s.pins.rst = true) (free : (s.pinsAt 1).rst = false)
    (valid : (s.pinsAt 1).reqValid = true) :
    edges 2 s = .next (s.resetEdge.advance.accept (s.pinsAt 1)).advance := by
  rw [← State.resetEdge_advance_pins] at free valid
  rw [edges_succ 1 (step_reset rst), edges_succ 0 (step_accept free (State.resetEdge_st s) valid), edges_zero,
    State.resetEdge_advance_pins]

/-- At every edge the unit makes one of its transitions: reset, or the one its phase allows (R21, R172). -/
theorem clockEdge_total (p : Pins) (s : State) : ∃ t, clockEdge p s = .next t := by
  cases rst : p.rst with
  | true => exact ⟨_, clockEdge_reset s rst⟩
  | false =>
    cases st : s.st with
    | idle => exact ⟨_, clockEdge_idle rst st⟩
    | busy =>
      by_cases wait : 0 < s.cnt
      · exact ⟨_, (clockEdge_busy rst st).trans (if_pos wait)⟩
      · exact ⟨_, (clockEdge_busy rst st).trans (if_neg wait)⟩
    | done => exact ⟨_, clockEdge_done rst st⟩

end Sys2Proof.Machine
end

section
/-! The obligations of 70_reset_and_hazards.md. -/

namespace Sys2Proof.Proofs

open Sys2Proof.Machine

/-- Settles O6: the reset transition, with its outputs. -/
theorem resetEdgeRestoresEveryElement : Obligations.ResetEdgeRestoresEveryElement :=
  fun s rst => ⟨_, step_reset rst, rfl, s.resetEdge_outputs⟩

/-- Settles O7: a reset edge leaves the unit idle whatever it was doing, so the next edge accepts; the acceptance keeps
the cleared response and puts its event after the reset's. -/
theorem requestAfterResetIsAccepted : Obligations.RequestAfterResetIsAccepted := by
  intro s rst free valid
  exact ⟨_, edges_reset_accept rst free valid, rfl, rfl, rfl, rfl⟩

/-- Settles O14: every edge makes a transition (`clockEdge_total`), and the environment's moving on does not stop it. -/
theorem everyEdgeHasANextState : Obligations.EveryEdgeHasANextState := by
  intro s
  obtain ⟨u, hu⟩ := clockEdge_total s.pins s
  exact ⟨u.advance, step_of_clockEdge hu⟩

end Sys2Proof.Proofs
end
